-- ==== Sys2Proof/Word.lean ====
section
/-! DEFINITION. The word types of the core: a byte is 8 bits and a register word 32 bits (spec 00_scope R10, 10_state
R21). Positions, sizes and counts are exact naturals (00_scope R12, R13) and have no type of their own. -/

namespace Sys2Proof

/-- A byte of IN, of OUT or of a block (00_scope R10). -/
abbrev Byte := BitVec 8

/-- A register word (10_state R21: 32 bits). -/
abbrev Word := BitVec 32

end Sys2Proof
end

