-- ==== Sys2Proof/Machine/Bits.lean ====
section
/-! DEFINITION. Byte order and sign extension (20_memory R66: little-endian everywhere; 00_scope R11). -/

namespace Sys2Proof.Machine

/-- The little-endian number of a list of bytes, least significant first (00_scope R11 `InRead`; 20_memory R66). -/
def leNat : List Byte → Nat
  | [] => 0
  | b :: bs => b.toNat + 256 * leNat bs

/-- The `n` bytes of a number, least significant first (20_memory R61, R66). -/
def leBytes : Nat → Nat → List Byte
  | 0, _ => []
  | n + 1, v => BitVec.ofNat 8 v :: leBytes n (v / 256)

/-- `sext_32`: a 32-bit word read as two's complement (00_scope R11). -/
def sext32 (w : Word) : Int := w.toInt

end Sys2Proof.Machine
end

