-- ==== Sys2Proof/Syntax.lean ====
section
/-! DEFINITION. The encodings the core interprets, as syntax (30_encoding): the BlockFormat codes, the 13 instructions of
spec/opcode_table.json with the table's own fields as operands, and the three levels at which an encoding reaches the
core (R80). An operand's width is carried by its type, so a value the encoding has no room for cannot be written. -/

namespace Sys2Proof

/-- The resolved BlockFormat of a container, the eight codes of OUT_FORMAT.FMT (30_encoding R90). -/
inductive BlockFormat where
  | none | dxt1 | dxt3 | dxt5 | bc7 | uncompressed | unsupported | passThrough
deriving DecidableEq, Repr, Inhabited

/-- One constructor per row of spec/opcode_table.json. BC7 operands are the bit ranges of the mode's layout rule
(30_encoding R99 to R106): `shape`, `rot`, `isel`, then each channel's endpoints packed with endpoint 0 lowest, then the
p-bits, then the index regions whole (where an index starts inside a region depends on the shape, R107). -/
inductive Instr where
  /-- DECODE: a host write of `data` to CTRL (R114); START is bit 0, bits 31:1 are ignored. -/
  | decode (data : BitVec 32)
  /-- DXT1 block, 64 bits (R91). -/
  | dxt1 (c0 c1 : BitVec 16) (sel : BitVec 32)
  /-- DXT3 block, 128 bits (R93). -/
  | dxt3 (alpha : BitVec 64) (c0 c1 : BitVec 16) (sel : BitVec 32)
  /-- DXT5 block, 128 bits (R94). -/
  | dxt5 (a0 a1 : BitVec 8) (asel : BitVec 48) (c0 c1 : BitVec 16) (sel : BitVec 32)
  /-- BC7 mode 0 (R99). -/
  | bc7Mode0 (shape : BitVec 4) (r g b : BitVec 24) (p : BitVec 6) (i1 : BitVec 45)
  /-- BC7 mode 1 (R100). -/
  | bc7Mode1 (shape : BitVec 6) (r g b : BitVec 24) (p : BitVec 2) (i1 : BitVec 46)
  /-- BC7 mode 2 (R101). -/
  | bc7Mode2 (shape : BitVec 6) (r g b : BitVec 30) (i1 : BitVec 29)
  /-- BC7 mode 3 (R102). -/
  | bc7Mode3 (shape : BitVec 6) (r g b : BitVec 28) (p : BitVec 4) (i1 : BitVec 30)
  /-- BC7 mode 4 (R103). -/
  | bc7Mode4 (rot : BitVec 2) (isel : BitVec 1) (r g b : BitVec 10) (a : BitVec 12) (i1 : BitVec 31) (i2 : BitVec 47)
  /-- BC7 mode 5 (R104). -/
  | bc7Mode5 (rot : BitVec 2) (r g b : BitVec 14) (a : BitVec 16) (i1 : BitVec 31) (i2 : BitVec 31)
  /-- BC7 mode 6 (R105). -/
  | bc7Mode6 (r g b a : BitVec 14) (p : BitVec 2) (i1 : BitVec 63)
  /-- BC7 mode 7 (R106). -/
  | bc7Mode7 (shape : BitVec 6) (r g b a : BitVec 20) (p : BitVec 4) (i1 : BitVec 30)
  /-- BC7 reserved mode: low byte 0, the other 120 bits any value (R109 (a), 42_bc7 R208). -/
  | bc7Reserved (rest : BitVec 120)
deriving DecidableEq, Repr

/-- What reaches the core to be decoded (R80): a host write to CTRL, or the decode key `(fmt, blk)` of one block. -/
inductive Encoded where
  | command (data : BitVec 32)
  | block (fmt : BlockFormat) (blk : List Byte)
deriving DecidableEq, Repr

/-- Why an encoding is no instruction. -/
inductive DecodeError where
  /-- A CTRL write with bit 0 clear: it has no effect (10_state R23). -/
  | startClear
  /-- The key's format has no block decoder: NONE, Uncompressed, Unsupported or PassThrough (R89). -/
  | noBlockDecoder
  /-- The key's bytes are not the block length of the format (R108). -/
  | wrongLength
deriving DecidableEq, Repr

end Sys2Proof
end

