-- ==== Sys2Proof/WellFormed.lean ====
section
/-! DEFINITION. Well-formed instructions. The operand types already fix every width of 30_encoding R91 to R106, and every
block whose bits they hold is legal (R109, 41_dxt R163), so one check is left: DECODE is a CTRL write whose START bit is
set (R114). -/

namespace Sys2Proof

/-- The checks on an instruction's operands: the START bit of a DECODE (30_encoding R114). -/
def Instr.wellFormed : Instr → Bool
  | .decode data => data.getLsbD 0
  | .dxt1 .. | .dxt3 .. | .dxt5 .. => true
  | .bc7Mode0 .. | .bc7Mode1 .. | .bc7Mode2 .. | .bc7Mode3 .. => true
  | .bc7Mode4 .. | .bc7Mode5 .. | .bc7Mode6 .. | .bc7Mode7 .. => true
  | .bc7Reserved .. => true

end Sys2Proof
end

