-- ==== Sys2Proof/Decode.lean ====
section
/-! DEFINITION. The decoder, total on every encoding and refusing by name, and the encoder after it, both written from the
layout rules of spec 30_encoding: DXT blocks R91 to R94, BC7 modes R99 to R106 (the mode prefix R96), the host command
R114. The decode key selects one rule and one only (R89). -/

namespace Sys2Proof

open Machine

/-- Bytes per block of a format that has a block decoder (30_encoding R90, R108). -/
def blockLength : BlockFormat → Option Nat
  | .dxt1 => some 8
  | .dxt3 | .dxt5 | .bc7 => some 16
  | .none | .uncompressed | .unsupported | .passThrough => none

/-- A DXT1 block's 64 bits read by the layout of 30_encoding R91. -/
def decodeDxt1 (w : BitVec 64) : Instr :=
  .dxt1 (w.extractLsb' 0 16) (w.extractLsb' 16 16) (w.extractLsb' 32 32)

/-- A DXT3 block's 128 bits read by the layout of 30_encoding R93. -/
def decodeDxt3 (w : BitVec 128) : Instr :=
  .dxt3 (w.extractLsb' 0 64) (w.extractLsb' 64 16) (w.extractLsb' 80 16) (w.extractLsb' 96 32)

/-- A DXT5 block's 128 bits read by the layout of 30_encoding R94. -/
def decodeDxt5 (w : BitVec 128) : Instr :=
  .dxt5 (w.extractLsb' 0 8) (w.extractLsb' 8 8) (w.extractLsb' 16 48) (w.extractLsb' 64 16) (w.extractLsb' 80 16)
    (w.extractLsb' 96 32)

/-- BC7 mode of a block: the position of the first set bit of bits 0 to 7, or none for the reserved mode (30_encoding R96,
42_bc7 R182, R183; bits 8 to 127 are not scanned). -/
def bc7ModeOf (w : BitVec 128) : Option Nat :=
  (List.range 8).find? fun k => w.getLsbD k

/-- Mode 0 layout (30_encoding R99). -/
def decodeBc7Mode0 (w : BitVec 128) : Instr :=
  .bc7Mode0 (w.extractLsb' 1 4) (w.extractLsb' 5 24) (w.extractLsb' 29 24) (w.extractLsb' 53 24) (w.extractLsb' 77 6)
    (w.extractLsb' 83 45)

/-- Mode 1 layout (30_encoding R100). -/
def decodeBc7Mode1 (w : BitVec 128) : Instr :=
  .bc7Mode1 (w.extractLsb' 2 6) (w.extractLsb' 8 24) (w.extractLsb' 32 24) (w.extractLsb' 56 24) (w.extractLsb' 80 2)
    (w.extractLsb' 82 46)

/-- Mode 2 layout (30_encoding R101). -/
def decodeBc7Mode2 (w : BitVec 128) : Instr :=
  .bc7Mode2 (w.extractLsb' 3 6) (w.extractLsb' 9 30) (w.extractLsb' 39 30) (w.extractLsb' 69 30) (w.extractLsb' 99 29)

/-- Mode 3 layout (30_encoding R102). -/
def decodeBc7Mode3 (w : BitVec 128) : Instr :=
  .bc7Mode3 (w.extractLsb' 4 6) (w.extractLsb' 10 28) (w.extractLsb' 38 28) (w.extractLsb' 66 28) (w.extractLsb' 94 4)
    (w.extractLsb' 98 30)

/-- Mode 4 layout (30_encoding R103). -/
def decodeBc7Mode4 (w : BitVec 128) : Instr :=
  .bc7Mode4 (w.extractLsb' 5 2) (w.extractLsb' 7 1) (w.extractLsb' 8 10) (w.extractLsb' 18 10) (w.extractLsb' 28 10)
    (w.extractLsb' 38 12) (w.extractLsb' 50 31) (w.extractLsb' 81 47)

/-- Mode 5 layout (30_encoding R104). -/
def decodeBc7Mode5 (w : BitVec 128) : Instr :=
  .bc7Mode5 (w.extractLsb' 6 2) (w.extractLsb' 8 14) (w.extractLsb' 22 14) (w.extractLsb' 36 14) (w.extractLsb' 50 16)
    (w.extractLsb' 66 31) (w.extractLsb' 97 31)

/-- Mode 6 layout (30_encoding R105). -/
def decodeBc7Mode6 (w : BitVec 128) : Instr :=
  .bc7Mode6 (w.extractLsb' 7 14) (w.extractLsb' 21 14) (w.extractLsb' 35 14) (w.extractLsb' 49 14) (w.extractLsb' 63 2)
    (w.extractLsb' 65 63)

/-- Mode 7 layout (30_encoding R106). -/
def decodeBc7Mode7 (w : BitVec 128) : Instr :=
  .bc7Mode7 (w.extractLsb' 8 6) (w.extractLsb' 14 20) (w.extractLsb' 34 20) (w.extractLsb' 54 20) (w.extractLsb' 74 20)
    (w.extractLsb' 94 4) (w.extractLsb' 98 30)

/-- A BC7 block's 128 bits (30_encoding R89, R96): the mode prefix selects the layout, a zero low byte is the reserved
mode. -/
def decodeBc7 (w : BitVec 128) : Instr :=
  match bc7ModeOf w with
  | some 0 => decodeBc7Mode0 w
  | some 1 => decodeBc7Mode1 w
  | some 2 => decodeBc7Mode2 w
  | some 3 => decodeBc7Mode3 w
  | some 4 => decodeBc7Mode4 w
  | some 5 => decodeBc7Mode5 w
  | some 6 => decodeBc7Mode6 w
  | some 7 => decodeBc7Mode7 w
  | _ => .bc7Reserved (w.extractLsb' 8 120)

/-- The bits of a block, bit `k` being bit `k mod 8` of byte `k / 8` (20_memory R66; 30_encoding R95). -/
def blockBits (n : Nat) (blk : List Byte) : BitVec n := BitVec.ofNat n (leNat blk)

/-- The decode key `(fmt, blk)` (30_encoding R89): exactly one instruction for a format with a block decoder and a block
of its length. -/
def decodeBlock (fmt : BlockFormat) (blk : List Byte) : Except DecodeError Instr :=
  match blockLength fmt with
  | none => .error .noBlockDecoder
  | some n =>
    if blk.length ≠ n then .error .wrongLength
    else
      match fmt with
      | .dxt1 => .ok (decodeDxt1 (blockBits 64 blk))
      | .dxt3 => .ok (decodeDxt3 (blockBits 128 blk))
      | .dxt5 => .ok (decodeDxt5 (blockBits 128 blk))
      | _ => .ok (decodeBc7 (blockBits 128 blk))

/-- A host write to CTRL (30_encoding R114, 10_state R23): DECODE exactly when bit 0 is 1. -/
def decodeCommand (data : BitVec 32) : Except DecodeError Instr :=
  if data.getLsbD 0 then .ok (.decode data) else .error .startClear

/-- The decoder, total on every encoding (30_encoding R80). -/
def decode : Encoded → Except DecodeError Instr
  | .command data => decodeCommand data
  | .block fmt blk => decodeBlock fmt blk

/-! ## The encoder, from the same layout rules -/

/-- The 128 bits of a BC7 block, from the layouts of 30_encoding R99 to R106 (`a ++ b` puts `a` above `b`, 00_scope R10).
An instruction that is no BC7 block has none; its word is 0. -/
def bc7Bits : Instr → BitVec 128
  | .bc7Mode0 shape r g b p i1 => i1 ++ p ++ b ++ g ++ r ++ shape ++ 0b1#1
  | .bc7Mode1 shape r g b p i1 => i1 ++ p ++ b ++ g ++ r ++ shape ++ 0b10#2
  | .bc7Mode2 shape r g b i1 => i1 ++ b ++ g ++ r ++ shape ++ 0b100#3
  | .bc7Mode3 shape r g b p i1 => i1 ++ p ++ b ++ g ++ r ++ shape ++ 0b1000#4
  | .bc7Mode4 rot isel r g b a i1 i2 => i2 ++ i1 ++ a ++ b ++ g ++ r ++ isel ++ rot ++ 0b10000#5
  | .bc7Mode5 rot r g b a i1 i2 => i2 ++ i1 ++ a ++ b ++ g ++ r ++ rot ++ 0b100000#6
  | .bc7Mode6 r g b a p i1 => i1 ++ p ++ a ++ b ++ g ++ r ++ 0b1000000#7
  | .bc7Mode7 shape r g b a p i1 => i1 ++ p ++ a ++ b ++ g ++ r ++ shape ++ 0b10000000#8
  | .bc7Reserved rest => rest ++ 0#8
  | .decode .. | .dxt1 .. | .dxt3 .. | .dxt5 .. => 0#128

/-- A BC7 instruction's 16 block bytes, byte 0 holding bits 7 to 0 (30_encoding R95). -/
def bc7Bytes (i : Instr) : List Byte := leBytes 16 (bc7Bits i).toNat

/-- The encoding of an instruction: DECODE is a CTRL write (30_encoding R114), every other a block of its format. -/
def encode : Instr → Encoded
  | .decode data => .command data
  | .dxt1 c0 c1 sel => .block .dxt1 (leBytes 8 (sel ++ c1 ++ c0 : BitVec 64).toNat)
  | .dxt3 alpha c0 c1 sel => .block .dxt3 (leBytes 16 (sel ++ c1 ++ c0 ++ alpha : BitVec 128).toNat)
  | .dxt5 a0 a1 asel c0 c1 sel =>
    .block .dxt5 (leBytes 16 (sel ++ c1 ++ c0 ++ asel ++ a1 ++ a0 : BitVec 128).toNat)
  | .bc7Mode0 shape r g b p i1 => .block .bc7 (bc7Bytes (.bc7Mode0 shape r g b p i1))
  | .bc7Mode1 shape r g b p i1 => .block .bc7 (bc7Bytes (.bc7Mode1 shape r g b p i1))
  | .bc7Mode2 shape r g b i1 => .block .bc7 (bc7Bytes (.bc7Mode2 shape r g b i1))
  | .bc7Mode3 shape r g b p i1 => .block .bc7 (bc7Bytes (.bc7Mode3 shape r g b p i1))
  | .bc7Mode4 rot isel r g b a i1 i2 => .block .bc7 (bc7Bytes (.bc7Mode4 rot isel r g b a i1 i2))
  | .bc7Mode5 rot r g b a i1 i2 => .block .bc7 (bc7Bytes (.bc7Mode5 rot r g b a i1 i2))
  | .bc7Mode6 r g b a p i1 => .block .bc7 (bc7Bytes (.bc7Mode6 r g b a p i1))
  | .bc7Mode7 shape r g b a p i1 => .block .bc7 (bc7Bytes (.bc7Mode7 shape r g b a p i1))
  | .bc7Reserved rest => .block .bc7 (bc7Bytes (.bc7Reserved rest))

/-! ## Words of the opcode table -/

/-- What a table word of `nbits` bits stands for (30_encoding R113). One byte: the data of a CTRL write when its START bit
is set, since DECODE's row fixes that bit alone, else the low byte of a BC7 block, to which a BC7 row's match and mask apply;
two or three bytes, the low bytes of a BC7 block; four, the data of a CTRL write; five to eight, a DXT1 block; nine to
sixteen, a BC7 block. One byte cannot tell DECODE from BC7 mode 0, and the table gives DXT3 and DXT5 no bit that tells them
from BC7, their selector being the resolved format (log entry 13). Missing high bytes are 0. -/
def tableWord (nbits w : Nat) : Option Encoded :=
  if nbits = 0 then none
  else if nbits ≤ 8 ∧ w % 2 = 1 then some (.command (BitVec.ofNat 32 (w % 2 ^ nbits)))
  else if nbits ≤ 24 then some (.block .bc7 (leBytes 16 (w % 2 ^ nbits)))
  else if nbits ≤ 32 then some (.command (BitVec.ofNat 32 (w % 2 ^ nbits)))
  else if nbits ≤ 64 then some (.block .dxt1 (leBytes 8 (w % 2 ^ nbits)))
  else if nbits ≤ 128 then some (.block .bc7 (leBytes 16 (w % 2 ^ nbits)))
  else none

/-- The instruction the decoder reads from a word of the opcode table, bit 0 the least significant bit of its first
byte; none where it refuses. -/
def decodeTableWord (nbits w : Nat) : Option Instr :=
  match tableWord nbits w with
  | none => none
  | some e => (decode e).toOption

end Sys2Proof
end

