-- ==== Sys2Proof/Machine/Datapath.lean ====
section
/-! DEFINITION. The plain data types of the ENGINE's internal state (spec 10_state R39 to R44) and of the values that pass
through it: pixels, the sequencer's phase, the parse, locator, raster, BC7 and DXT registers. -/

namespace Sys2Proof.Machine

/-- A pixel, the 4-tuple `(r, g, b, a)` of bytes (00_scope R14). -/
structure Pixel where
  r : Byte
  g : Byte
  b : Byte
  a : Byte
deriving DecidableEq, Repr, Inhabited

/-- The sequencer's phase; it names the step the ENGINE does next (10_state R39, 44_raster R251). -/
inductive Phase where
  | idle | parse | resolve | locate | alloc | decode | alpha | finish
deriving DecidableEq, Repr, Inhabited

/-- Parse state (10_state R40; values of 40_container R121 to R126). -/
structure ParseRegs where
  /-- header length, 128 or 148 -/
  hl : Nat
  hasDx10 : Bool
  cubemap : Bool
  /-- normalised mip count -/
  mips : Nat
  baseW : Nat
  baseH : Nat
  pff : Word
  fcc : Word
  rgbBits : Word
  dxgi : Word
deriving DecidableEq, Repr, Inhabited

/-- Resolver and locator state (10_state R41). `face` and `level` are the counters `f` and `L`. -/
structure LocateRegs where
  fmt : BlockFormat
  srgb : Bool
  /-- bytes per block -/
  bs : Nat
  face : Nat
  level : Nat
  /-- the stream cursor, an exact byte position (00_scope R13) -/
  pos : Nat
  w : Nat
  h : Nat
  size : Nat
deriving DecidableEq, Repr, Inhabited

/-- Raster state (10_state R42): `W`, `H`, `BW`, `BH` and the block counters `bx`, `by` (here `blkX`, `blkY`). -/
structure RasterRegs where
  W : Nat
  H : Nat
  BW : Nat
  BH : Nat
  blkX : Nat
  blkY : Nat
deriving DecidableEq, Repr, Inhabited

/-- The BC7 bit cursor `{bytes, pos}` (10_state R43, 42_bc7 R180). -/
structure Cursor where
  bytes : List Byte
  pos : Nat
deriving DecidableEq, Repr, Inhabited

/-- BC7 datapath state, live only during the decode of one block (10_state R43): the cursor, the mode and header fields,
the endpoints `ep[e][ch]`, the p-bits and the two index planes. -/
structure Bc7Regs where
  cursor : Cursor
  mode : Nat
  shape : Nat
  rot : Nat
  isel : Nat
  ep : List (List Nat)
  p : List Nat
  i1 : List Nat
  i2 : List Nat
deriving DecidableEq, Repr, Inhabited

/-- DXT datapath state, live only during the decode of one block (10_state R44). -/
structure DxtRegs where
  c0 : BitVec 16
  c1 : BitVec 16
  sel : BitVec 32
  pal : List Pixel
  a0 : Byte
  a1 : Byte
  asel : BitVec 48
  apal : List Byte
deriving DecidableEq, Repr, Inhabited

end Sys2Proof.Machine
end

