-- ==== Sys2Proof/Machine/Tables.lean ====
section
/-! DEFINITION. The constant tables of the BC7 decoder, transcribed from spec 43_bc7_tables and 30_encoding R97: the mode
table, interpolation weights, partition and anchor tables, and the sRGB table. They are constants of the step, not state
(10_state R20). Every index the machine uses is in range (43_bc7_tables R236). -/

namespace Sys2Proof.Machine

/-- A row of the BC7 mode table (30_encoding R97): subsets, field widths, raw and augmented channel precisions in the order
R, G, B, A, the number of p-bits and the two index precisions. -/
structure ModeRow where
  ns : Nat
  pb : Nat
  rb : Nat
  isb : Nat
  prec : List Nat
  precP : List Nat
  np : Nat
  ib : Nat
  ib2 : Nat
deriving DecidableEq, Repr, Inhabited

/-- The BC7 mode table (30_encoding R97), modes 0 to 7. -/
def modeTable : List ModeRow :=
  [⟨3, 4, 0, 0, [4, 4, 4, 0], [5, 5, 5, 0], 6, 3, 0⟩,
   ⟨2, 6, 0, 0, [6, 6, 6, 0], [7, 7, 7, 0], 2, 3, 0⟩,
   ⟨3, 6, 0, 0, [5, 5, 5, 0], [5, 5, 5, 0], 0, 2, 0⟩,
   ⟨2, 6, 0, 0, [7, 7, 7, 0], [8, 8, 8, 0], 4, 2, 0⟩,
   ⟨1, 0, 2, 1, [5, 5, 5, 6], [5, 5, 5, 6], 0, 2, 3⟩,
   ⟨1, 0, 2, 0, [7, 7, 7, 8], [7, 7, 7, 8], 0, 2, 2⟩,
   ⟨1, 0, 0, 0, [7, 7, 7, 7], [8, 8, 8, 8], 2, 4, 0⟩,
   ⟨2, 6, 0, 0, [5, 5, 5, 5], [6, 6, 6, 6], 4, 2, 0⟩]

/-- The row of a mode 0 to 7 (42_bc7 R184). -/
def modeRow (mode : Nat) : ModeRow := modeTable.getD mode ⟨1, 0, 0, 0, [], [], 0, 0, 0⟩

/-- `WEIGHTS[bits]` (43_bc7_tables R230). -/
def weightTable : Nat → List Nat
  | 2 => [0, 21, 43, 64]
  | 3 => [0, 9, 18, 27, 37, 46, 55, 64]
  | 4 => [0, 4, 9, 13, 17, 21, 26, 30, 34, 38, 43, 47, 51, 55, 60, 64]
  | _ => []

/-- `WEIGHTS[bits][index]` (43_bc7_tables R230). -/
def weight (bits index : Nat) : Nat := (weightTable bits).getD index 0

/-- Two-subset partitions, shape 0 to 63: bit `i` is the subset of pixel `i` (43_bc7_tables R232). -/
def partition2Table : List Nat :=
  [0xCCCC, 0x8888, 0xEEEE, 0xECC8, 0xC880, 0xFEEC, 0xFEC8, 0xEC80,
   0xC800, 0xFFEC, 0xFE80, 0xE800, 0xFFE8, 0xFF00, 0xFFF0, 0xF000,
   0xF710, 0x008E, 0x7100, 0x08CE, 0x008C, 0x7310, 0x3100, 0x8CCE,
   0x088C, 0x3110, 0x6666, 0x366C, 0x17E8, 0x0FF0, 0x718E, 0x399C] ++
  [0xAAAA, 0xF0F0, 0x5A5A, 0x33CC, 0x3C3C, 0x55AA, 0x9696, 0xA55A,
   0x73CE, 0x13C8, 0x324C, 0x3BDC, 0x6996, 0xC33C, 0x9966, 0x0660,
   0x0272, 0x04E4, 0x4E40, 0x2720, 0xC936, 0x936C, 0x39C6, 0x639C,
   0x9336, 0x9CC6, 0x817E, 0xE718, 0xCCF0, 0x0FCC, 0x7744, 0xEE22]

/-- Three-subset partitions, shape 0 to 63: bits `2i+1:2i` are the subset of pixel `i` (43_bc7_tables R233). -/
def partition3Table : List Nat :=
  [0xAA685050, 0x6A5A5040, 0x5A5A4200, 0x5450A0A8, 0xA5A50000, 0xA0A05050, 0x5555A0A0, 0x5A5A5050,
   0xAA550000, 0xAA555500, 0xAAAA5500, 0x90909090, 0x94949494, 0xA4A4A4A4, 0xA9A59450, 0x2A0A4250,
   0xA5945040, 0x0A425054, 0xA5A5A500, 0x55A0A0A0, 0xA8A85454, 0x6A6A4040, 0xA4A45000, 0x1A1A0500,
   0x0050A4A4, 0xAAA59090, 0x14696914, 0x69691400, 0xA08585A0, 0xAA821414, 0x50A4A450, 0x6A5A0200] ++
  [0xA9A58000, 0x5090A0A8, 0xA8A09050, 0x24242424, 0x00AA5500, 0x24924924, 0x24499224, 0x50A50A50,
   0x500AA550, 0xAAAA4444, 0x66660000, 0xA5A0A5A0, 0x50A050A0, 0x69286928, 0x44AAAA44, 0x66666600,
   0xAA444444, 0x54A854A8, 0x95809580, 0x96969600, 0xA85454A8, 0x80959580, 0xAA141414, 0x96960000,
   0xAAAA1414, 0xA05050A0, 0xA0A5A5A0, 0x96000000, 0x40804080, 0xA9A8A9A8, 0xAAAAAA44, 0x2A4A5254]

/-- `PARTITION(NS, shape, i)`: the subset of pixel `i` (43_bc7_tables R231 to R233). -/
def partitionOf (ns shape i : Nat) : Nat :=
  match ns with
  | 2 => (partition2Table.getD shape 0 >>> i) % 2
  | 3 => (partition3Table.getD shape 0 >>> (2 * i)) % 4
  | _ => 0

/-- `ANCHORS2`, the anchor of subset 1 of each two-subset shape (43_bc7_tables R234). -/
def anchors2Table : List Nat :=
  [15, 15, 15, 15, 15, 15, 15, 15, 15, 15, 15, 15, 15, 15, 15, 15,
   15, 2, 8, 2, 2, 8, 8, 15, 2, 8, 2, 2, 8, 8, 2, 2] ++
  [15, 15, 6, 8, 2, 8, 15, 15, 2, 8, 2, 2, 2, 15, 15, 6,
   6, 2, 6, 8, 15, 15, 2, 2, 15, 15, 15, 15, 15, 2, 2, 15]

/-- `ANCHORS3_2`, the anchor of subset 1 of each three-subset shape (43_bc7_tables R234). -/
def anchors3SecondTable : List Nat :=
  [3, 3, 15, 15, 8, 3, 15, 15, 8, 8, 6, 6, 6, 5, 3, 3,
   3, 3, 8, 15, 3, 3, 6, 10, 5, 8, 8, 6, 8, 5, 15, 15] ++
  [8, 15, 3, 5, 6, 10, 8, 15, 15, 3, 15, 5, 15, 15, 15, 15,
   3, 15, 5, 5, 5, 8, 5, 10, 5, 10, 8, 13, 15, 12, 3, 3]

/-- `ANCHORS3_3`, the anchor of subset 2 of each three-subset shape (43_bc7_tables R234). -/
def anchors3ThirdTable : List Nat :=
  [15, 8, 8, 3, 15, 15, 3, 8, 15, 15, 15, 15, 15, 15, 15, 8,
   15, 8, 15, 3, 15, 8, 15, 8, 3, 15, 6, 10, 15, 15, 10, 8] ++
  [15, 3, 15, 10, 10, 8, 9, 10, 6, 15, 8, 15, 3, 6, 6, 8,
   15, 3, 15, 15, 15, 15, 15, 15, 15, 15, 15, 15, 3, 15, 15, 8]

/-- `ANCHORS(NS, shape)`: the pixels whose primary index has one bit fewer (43_bc7_tables R234). -/
def anchors (ns shape : Nat) : List Nat :=
  match ns with
  | 2 => [0, anchors2Table.getD shape 0]
  | 3 => [0, anchors3SecondTable.getD shape 0, anchors3ThirdTable.getD shape 0]
  | _ => [0]

/-- `SRGB_LUT` (43_bc7_tables R235). -/
def srgbTable : List Nat :=
  [0, 0, 0, 0, 0, 0, 0, 1, 1, 1, 1, 1, 1, 1, 1, 1,
   1, 1, 2, 2, 2, 2, 2, 2, 2, 2, 3, 3, 3, 3, 3, 3,
   4, 4, 4, 4, 4, 5, 5, 5, 5, 6, 6, 6, 6, 7, 7, 7,
   8, 8, 8, 8, 9, 9, 9, 10, 10, 10, 11, 11, 12, 12, 12, 13] ++
  [13, 13, 14, 14, 15, 15, 16, 16, 17, 17, 17, 18, 18, 19, 19, 20,
   20, 21, 22, 22, 23, 23, 24, 24, 25, 25, 26, 27, 27, 28, 29, 29,
   30, 30, 31, 32, 32, 33, 34, 35, 35, 36, 37, 37, 38, 39, 40, 41,
   41, 42, 43, 44, 45, 45, 46, 47, 48, 49, 50, 51, 51, 52, 53, 54] ++
  [55, 56, 57, 58, 59, 60, 61, 62, 63, 64, 65, 66, 67, 68, 69, 70,
   71, 72, 73, 74, 76, 77, 78, 79, 80, 81, 82, 84, 85, 86, 87, 88,
   90, 91, 92, 93, 95, 96, 97, 99, 100, 101, 103, 104, 105, 107, 108, 109,
   111, 112, 114, 115, 116, 118, 119, 121, 122, 124, 125, 127, 128, 130, 131, 133] ++
  [134, 136, 138, 139, 141, 142, 144, 146, 147, 149, 151, 152, 154, 156, 157, 159,
   161, 163, 164, 166, 168, 170, 171, 173, 175, 177, 179, 181, 183, 184, 186, 188,
   190, 192, 194, 196, 198, 200, 202, 204, 206, 208, 210, 212, 214, 216, 218, 220,
   222, 224, 226, 229, 231, 233, 235, 237, 239, 242, 244, 246, 248, 250, 253, 255]

/-- `SRGB_LUT[c]` (43_bc7_tables R235). -/
def srgbOf (c : Byte) : Byte := BitVec.ofNat 8 (srgbTable.getD c.toNat 0)

/-! ## The default parameters -/

/-- `FACE_GAP`, the bytes between consecutive cubemap faces (00_scope R8). -/
def faceGapBytes : Nat := 27

/-- The default `BPP_TABLE`, rows of first code, last code and bits per pixel (93_implementation_defined I13). -/
def defaultBppTable : List (Nat × Nat × Nat) :=
  [(1, 4, 128), (5, 8, 96), (9, 22, 64), (102, 102, 64), (108, 109, 64), (23, 47, 32), (67, 69, 32), (87, 93, 32),
   (100, 101, 32), (107, 107, 32), (104, 105, 24), (132, 132, 24), (48, 59, 16), (85, 86, 16), (114, 115, 16),
   (130, 131, 16), (103, 103, 12), (106, 106, 12), (110, 110, 12), (60, 65, 8), (111, 113, 8), (66, 66, 1),
   (70, 72, 4), (79, 81, 4), (73, 78, 8), (82, 84, 8), (94, 99, 8)]

/-- The default `FOURCC_UNSUPPORTED` (00_scope R8): DXT2, DXT4, ATI1, ATI2, BC4U, BC4S, BC5U, BC5S with the values of
30_encoding R85. -/
def defaultFourccUnsupported : List Word :=
  [0x32545844, 0x34545844, 0x31495441, 0x32495441, 0x55344342, 0x53344342, 0x55354342, 0x53354342]

end Sys2Proof.Machine
end

