-- ==== Sys2Proof/Config.lean ====
section
/-! DEFINITION. The configuration: the implementation parameters of spec 00_scope R8 with their values or defaults, and
the free values, one opaque constant for each value the spec leaves unspecified (93_implementation_defined, treatment
"any value"). Nothing in Lean can evaluate an opaque constant, so a claim that holds of one holds whatever it is. -/

namespace Sys2Proof

/-- The parameters a model takes as arguments (00_scope R8). They are plain data and never change: State carries one such
record, so every statement over states holds for every value of them. -/
structure Params where
  /-- `IN_CAPACITY`, bytes of IN -/
  inCapacity : Nat
  /-- `OUT_CAPACITY`, bytes of OUT -/
  outCapacity : Nat
  /-- `FACE_GAP`, bytes skipped between cubemap faces -/
  faceGap : Nat
  /-- `BPP_TABLE` as rows (first code, last code, bits per pixel); a code in no row has 0 -/
  bppTable : List (Nat × Nat × Nat)
  /-- `FOURCC_UNSUPPORTED` -/
  fourccUnsupported : List Word
deriving DecidableEq, Repr, Inhabited

/-- `IN_CAPACITY` is OPEN, at least 148 (00_scope R8): the excess over 148, free. -/
opaque Config.inCapacityExtra : Nat

/-- `OUT_CAPACITY` is OPEN, at least 64 (00_scope R8): the excess over 64, free. -/
opaque Config.outCapacityExtra : Nat

/-- This hardware's parameters (00_scope R8): the two capacities free above their bounds, `FACE_GAP` 27, the defaults. -/
def Config.params : Params where
  inCapacity := Config.inCapacityExtra + 148
  outCapacity := Config.outCapacityExtra + 64
  faceGap := Machine.faceGapBytes
  bppTable := Machine.defaultBppTable
  fourccUnsupported := Machine.defaultFourccUnsupported

/-! ## Free values -/

/-- What byte `addr` of IN holds before the HOST writes it, in power epoch `epoch` (10_state R46, 70_reset R312, I1:
any value). -/
opaque Config.unwrittenIn (epoch addr : Nat) : Byte

/-- A byte of an unspecified host read of OUT (20_memory R63, I2 to I4, I6: any value), the `n`-th free value drawn,
byte `j` of the access. -/
opaque Config.freeOutByte (n j : Nat) : Byte

/-- An unspecified host read of a result register while BUSY (70_reset R315, I5: any value). -/
opaque Config.freeRegister (n : Nat) : Word

/-- What SLICE_OFFSET holds for an exact slice position `v` that does not fit the 32-bit register: the spec states none. It
is a function of `v` alone, because the result of a DECODE depends only on its operands (44_raster R250, R252). -/
opaque Config.unfitOffset (v : Nat) : Word

/-- What SLICE_SIZE holds for an exact slice size `v` that does not fit the 32-bit register: likewise. -/
opaque Config.unfitSize (v : Nat) : Word

/-- The parse registers once a DECODE has ended (93_implementation_defined I7: any value between DECODEs). -/
opaque Config.leftoverParse (n : Nat) : Machine.ParseRegs

/-- The resolver and locator registers once a DECODE has ended (I7: any value). -/
opaque Config.leftoverLocate (n : Nat) : Machine.LocateRegs

/-- The raster registers once a DECODE has ended (I7: any value). -/
opaque Config.leftoverRaster (n : Nat) : Machine.RasterRegs

/-- The BC7 datapath registers once a block is done (10_state R43: nothing survives; I7: any value). -/
opaque Config.leftoverBc7 (n : Nat) : Machine.Bc7Regs

/-- The DXT datapath registers once a block is done (10_state R44: nothing survives; I7: any value). -/
opaque Config.leftoverDxt (n : Nat) : Machine.DxtRegs

end Sys2Proof
end

