-- ==== Sys2Proof/Machine/Memory.lean ====
section
/-! DEFINITION. The byte memories IN and OUT (spec 20_memory R60, R62) as lists of (address, byte) pairs in one canonical
form: addresses strictly rising. The spec leaves the contents after reset unspecified (10_state R46), so an unlisted
address has no value here, and no entry can equal it; the machine reads it as a free value (Machine/Operands.lean). -/

namespace Sys2Proof.Machine

/-- A memory: the bytes written since reset, addresses strictly rising. -/
abbrev Memory := List Host.Cell

/-- What an unlisted address reads as: no value (10_state R46, 70_reset R312: contents after reset are unspecified). -/
def Memory.unlisted : Option Byte := none

/-- The byte last written at `k`, or no value. -/
def Memory.read : Memory → Nat → Option Byte
  | [], _ => Memory.unlisted
  | c :: m, k => if c.1 = k then some c.2 else Memory.read m k

/-- Writes byte `v` at `k`, keeping the addresses strictly rising. -/
def Memory.write : Memory → Nat → Byte → Memory
  | [], k, v => [(k, v)]
  | c :: m, k, v =>
    if k < c.1 then (k, v) :: c :: m
    else if k = c.1 then (k, v) :: m
    else c :: Memory.write m k v

/-- Writes a list of bytes at consecutive addresses from `k`, in rising order. -/
def Memory.writeList : Memory → Nat → List Byte → Memory
  | m, _, [] => m
  | m, k, v :: vs => Memory.writeList (m.write k v) (k + 1) vs

/-- The canonical form: addresses strictly rising. -/
abbrev Memory.wf (m : Memory) : Prop := m.Pairwise fun x y => x.1 < y.1

/-- Every listed address lies below `cap` (20_memory R60, R62: the memory has `cap` bytes). -/
abbrev Memory.below (m : Memory) (cap : Nat) : Prop := ∀ c ∈ m, c.1 < cap

end Sys2Proof.Machine
end

