-- ==== Sys2Proof/Machine/State.lean ====
section
/-! DEFINITION. The whole state of the core as plain data (spec 10_state R20 to R47): the register block, IN and OUT, the
ENGINE's sequencer and datapath registers, and the model's own fields (the HOST's turns, the data of the last host read,
the counters that index free values). State.reset is the machine right after reset (R46). -/

namespace Sys2Proof.Machine

/-- RESULT codes (10_state R25); codes 8 to 15 are never produced, so they have no name. -/
inductive Result where
  | none | ok | passThrough | errStructural | errUnsupported | errNotFound | errIo | errCapacity
deriving DecidableEq, Repr, Inhabited

/-- The fields of STATUS (10_state R24); its reserved bits read 0. -/
structure Status where
  busy : Bool
  done : Bool
  rasterValid : Bool
  ptValid : Bool
  result : Result
deriving DecidableEq, Repr, Inhabited

/-- The header mirror registers (10_state R37). -/
structure HeaderRegs where
  magic : Word
  width : Word
  height : Word
  pitch : Word
  mipCount : Word
  pfFlags : Word
  fourCC : Word
  rgbBitCount : Word
  rMask : Word
  gMask : Word
  bMask : Word
  aMask : Word
  caps : Word
  caps2 : Word
  dxgi : Word
  resDim : Word
  miscFlag : Word
  arraySize : Word
  miscFlags2 : Word
  info : Word
  mipsEff : Word
  length : Word
deriving DecidableEq, Repr, Inhabited

/-- The width of a host access (10_state R21, 20_memory R61): a byte, 16 or 32 bits. -/
inductive Width where
  | byte | half | word
deriving DecidableEq, Repr, Inhabited

/-- A host access to one of the three address spaces (20_memory R64), at an offset from its base. -/
inductive HostAccess where
  | regWrite (width : Width) (off : Nat) (v : Word)
  | regRead (width : Width) (off : Nat)
  | inWrite (width : Width) (addr : Nat) (v : Word)
  | inRead (width : Width) (addr : Nat)
  | outWrite (width : Width) (addr : Nat) (v : Word)
  | outRead (width : Width) (addr : Nat)
deriving DecidableEq, Repr, Inhabited

/-- One turn of the world outside the ENGINE: a host access, `n` steps left to the ENGINE before the next turn, or the
reset input (10_state R46, 70_reset R310). -/
inductive Turn where
  | access (a : HostAccess)
  | ticks (n : Nat)
  | rst
deriving DecidableEq, Repr, Inhabited

/-- The state of the core and of what drives it. -/
structure State where
  /-- the parameters (00_scope R8); no step changes them -/
  cfg : Params
  /-- STATUS (R24) -/
  status : Status
  /-- IN_LEN (R28) -/
  inLen : Word
  /-- REQ_SLICE (R29) -/
  reqSlice : Word
  /-- REQ_WIDTH (R30) -/
  reqWidth : Word
  /-- REQ_HEIGHT (R31) -/
  reqHeight : Word
  /-- REQ_FLAGS (R32) -/
  reqFlags : Word
  /-- OUT_WIDTH (R33) -/
  outWidth : Word
  /-- OUT_HEIGHT (R33) -/
  outHeight : Word
  /-- OUT_FORMAT (R34) -/
  outFormat : Word
  /-- PT_OFFSET (R35) -/
  ptOffset : Word
  /-- PT_LENGTH (R35) -/
  ptLength : Word
  /-- ERR_INFO (R26) -/
  errInfo : Word
  /-- ERR_BLOCK (R27) -/
  errBlock : Word
  /-- HDR_* (R37) -/
  hdr : HeaderRegs
  /-- SLICE_OFFSET (R35) -/
  sliceOffset : Word
  /-- SLICE_SIZE (R35) -/
  sliceSize : Word
  /-- IN (20_memory R60) -/
  inMem : Memory
  /-- OUT (20_memory R62) -/
  outMem : Memory
  /-- the sequencer's phase (R39) -/
  phase : Phase
  /-- parse state (R40) -/
  parse : ParseRegs
  /-- resolver and locator state (R41) -/
  loc : LocateRegs
  /-- raster state (R42) -/
  ras : RasterRegs
  /-- BC7 datapath state (R43) -/
  bc7 : Bc7Regs
  /-- DXT datapath state (R44) -/
  dxt : DxtRegs
  /-- the model's own: how many free values have been drawn -/
  draws : Nat
  /-- the model's own: how many resets have been taken; it indexes the unspecified contents of IN -/
  epoch : Nat
  /-- the model's own: the coming turns of the HOST and of the reset input, soonest first -/
  turns : List Turn
  /-- the model's own: the data the last host read returned -/
  busData : Word
deriving DecidableEq, Repr, Inhabited

/-- Why a step stops. Each case is a state no DECODE reaches (Safety.lean), so the stop is safe. -/
inductive Fault where
  /-- The block fetch needs a byte at or beyond IN_LEN, which no rule reads (10_state R28, 44_raster R255): raised by the
  block fetch of phase DECODE. Safe. -/
  | readPastEnd
  /-- Phase DECODE with a format that has no block decoder (30_encoding R89): raised by the block fetch. Safe. -/
  | noBlockDecoder
  /-- A raster of `4·W·H` bytes that does not fit OUT, so that some byte it covers does not exist (20_memory R62,
  44_raster R253): raised by a block's raster write and by phase ALPHA. Safe. -/
  | rasterOutsideOut
deriving DecidableEq, Repr

/-- Why an instruction has no meaning. -/
inductive Refusal where
  /-- The instruction named has no meaning yet: raised by an arm of exec. Safe. No arm raises it in this model. -/
  | notModelled (mnemonic : String)
deriving DecidableEq, Repr

/-- STATUS after reset and at the start of nothing: every field 0 (10_state R46). -/
def Status.reset : Status := ⟨false, false, false, false, .none⟩

/-- Every HDR_* register 0 (10_state R46, 44_raster R252). -/
def HeaderRegs.zero : HeaderRegs := ⟨0, 0, 0, 0, 0, 0, 0, 0, 0, 0, 0, 0, 0, 0, 0, 0, 0, 0, 0, 0, 0, 0⟩

/-- The machine right after reset (10_state R46). DESIGN CHOICE (log entry 1): the internal registers, whose contents the
spec leaves unspecified and never reads before writing, are all 0. IN and OUT list nothing. -/
def State.reset : State where
  cfg := Config.params
  status := Status.reset
  inLen := 0
  reqSlice := 0
  reqWidth := 0
  reqHeight := 0
  reqFlags := 0
  outWidth := 0
  outHeight := 0
  outFormat := 0
  ptOffset := 0
  ptLength := 0
  errInfo := 0
  errBlock := 0
  hdr := HeaderRegs.zero
  sliceOffset := 0
  sliceSize := 0
  inMem := []
  outMem := []
  phase := .idle
  parse := ⟨0, false, false, 0, 0, 0, 0, 0, 0, 0⟩
  loc := ⟨.none, false, 0, 0, 0, 0, 0, 0, 0⟩
  ras := ⟨0, 0, 0, 0, 0, 0⟩
  bc7 := ⟨⟨[], 0⟩, 0, 0, 0, 0, [], [], [], []⟩
  dxt := ⟨0, 0, 0, [], 0, 0, 0, []⟩
  draws := 0
  epoch := 0
  turns := []
  busData := 0

end Sys2Proof.Machine
end

