-- ==== Sys2Proof/Machine/Flags.lean ====
section
/-! DEFINITION. The status words. The core has no condition flags (spec 10_state R45); what plays their part are the
result fields: STATUS and its RESULT codes (R24, R25), ERR_INFO with its sub-cause, mode and bit position (R26, 60_exceptions
R280, R289), OUT_FORMAT (R34, 30_encoding R90) and HDR_INFO (R37). -/

namespace Sys2Proof.Machine

/-- RESULT codes 0 to 7 (10_state R25). -/
def resultCode : Result → Nat
  | .none => 0
  | .ok => 1
  | .passThrough => 2
  | .errStructural => 3
  | .errUnsupported => 4
  | .errNotFound => 5
  | .errIo => 6
  | .errCapacity => 7

/-- The STATUS word: BUSY bit 0, DONE bit 1, RASTER_VALID bit 2, PT_VALID bit 3, RESULT bits 11:8, the rest 0 (10_state
R24). -/
def statusWord (t : Status) : Word :=
  BitVec.ofNat 32 (t.busy.toNat + 2 * t.done.toNat + 4 * t.rasterValid.toNat + 8 * t.ptValid.toNat
    + 256 * resultCode t.result)

/-- The output signal `done` (10_state R47). -/
def doneSignal (s : State) : Bool := s.status.done

/-- The failures a DECODE can raise (60_exceptions R280). `bc7BitBudget` carries the block's mode and the cursor position
at which the failing field starts. -/
inductive Failure where
  | badMagic
  | truncHeader
  | bc7ReservedMode
  | bc7BitBudget (mode pos : Nat)
  | unsupported
  | notFound
  | io
  | capacity
deriving DecidableEq, Repr

/-- The RESULT of a failure (60_exceptions R280). -/
def failureResult : Failure → Result
  | .badMagic | .truncHeader | .bc7ReservedMode | .bc7BitBudget _ _ => .errStructural
  | .unsupported => .errUnsupported
  | .notFound => .errNotFound
  | .io => .errIo
  | .capacity => .errCapacity

/-- ERR_INFO packed from BITPOS, MODE and SUB: `(BITPOS << 8) | (MODE << 4) | sub` (60_exceptions R290, 10_state R26). -/
def errInfoWord (bitpos mode sub : Nat) : Word := BitVec.ofNat 32 ((bitpos <<< 8) ||| (mode <<< 4) ||| sub)

/-- The ERR_INFO of a failure (60_exceptions R280, R289): 0 for every result other than ERR_STRUCTURAL. -/
def failureInfo : Failure → Word
  | .badMagic => errInfoWord 0 0xF 1
  | .truncHeader => errInfoWord 0 0xF 2
  | .bc7ReservedMode => errInfoWord 8 8 3
  | .bc7BitBudget mode pos => errInfoWord pos mode 4
  | .unsupported | .notFound | .io | .capacity => 0

/-- BlockFormat codes (30_encoding R90). -/
def formatCode : BlockFormat → Nat
  | .none => 0
  | .dxt1 => 1
  | .dxt3 => 2
  | .dxt5 => 3
  | .bc7 => 4
  | .uncompressed => 5
  | .unsupported => 6
  | .passThrough => 7

/-- The OUT_FORMAT word: `code(fmt) | (srgb << 3)` (40_container R137, 10_state R34). -/
def outFormatWord (fmt : BlockFormat) (srgb : Bool) : Word := BitVec.ofNat 32 (formatCode fmt + 8 * srgb.toNat)

/-- The HDR_INFO word of a parsed header: `1 | (hasDx10 << 1) | (cubemap << 2)` (40_container R127, 10_state R37). -/
def hdrInfoWord (hasDx10 cubemap : Bool) : Word := BitVec.ofNat 32 (1 + 2 * hasDx10.toNat + 4 * cubemap.toNat)

/-- REQ_FLAGS.IGNORE_ALPHA (10_state R32). -/
def ignoreAlpha (s : State) : Bool := s.reqFlags.getLsbD 0

end Sys2Proof.Machine
end

