-- ==== Sys2Proof/Machine/Operands.lean ====
section
/-! DEFINITION. Operand forms: the bytes and little-endian numbers the ENGINE reads from IN (spec 00_scope R11, 20_memory
R60, R66), the index fields of DXT blocks (30_encoding R91 to R94) and the BC7 bit cursor (42_bc7 R180, R181). -/

namespace Sys2Proof.Machine

/-- `IN[k]`: the last byte written, or the unspecified content of this power epoch (20_memory R61, 10_state R46). -/
def inByte (s : State) (k : Nat) : Byte := (s.inMem.read k).getD (Config.unwrittenIn s.epoch k)

/-- The `n` bytes of IN from `addr`, in rising order. -/
def inBytes (s : State) (addr : Nat) : Nat → List Byte
  | 0 => []
  | n + 1 => inByte s addr :: inBytes s (addr + 1) n

/-- `InRead(addr, n)` (00_scope R11). -/
def inRead (s : State) (addr n : Nat) : Nat := leNat (inBytes s addr n)

/-- `InRead(addr, 4)` as a register word (30_encoding R81). -/
def inWord (s : State) (addr : Nat) : Word := BitVec.ofNat 32 (inRead s addr 4)

/-- `N = IN_LEN` (10_state R28). -/
def streamLength (s : State) : Nat := s.inLen.toNat

/-! ## DXT fields -/

/-- Pixel `i`'s 2-bit colour index, `sel[2i+1:2i]` (30_encoding R91). -/
def colourIndex (sel : BitVec 32) (i : Nat) : Nat := (sel.toNat >>> (2 * i)) % 4

/-- Pixel `i`'s 3-bit alpha index, `asel[3i+2:3i]` (30_encoding R94). -/
def alphaIndex (asel : BitVec 48) (i : Nat) : Nat := (asel.toNat >>> (3 * i)) % 8

/-- Pixel `i`'s explicit alpha nibble: the low nibble of byte `i / 2` for an even pixel (30_encoding R93, 41_dxt R158), that
is bits `4i+3:4i` of the little-endian 64-bit alpha field. -/
def alphaNibble (alpha : BitVec 64) (i : Nat) : Nat := (alpha.toNat >>> (4 * i)) % 16

/-! ## The BC7 bit cursor -/

/-- `bit(k) = (blk[k >> 3] >> (k & 7)) & 1` (42_bc7 R180). -/
def blockBit (bytes : List Byte) (k : Nat) : Nat := ((bytes.getD (k / 8) 0).toNat >>> (k % 8)) % 2

/-- The `n`-bit field at position `p`, first bit least significant: `Σ_{j<n} bit(p+j) << j` (42_bc7 R181). -/
def blockField (bytes : List Byte) (p : Nat) : Nat → Nat
  | 0 => 0
  | n + 1 => blockBit bytes p + 2 * blockField bytes (p + 1) n

/-- `read_bits(n)` (42_bc7 R181): fails, with the position at which the field starts, when it would pass bit 128. -/
def readBits (n : Nat) (c : Cursor) : Except Nat (Nat × Cursor) :=
  if 128 < c.pos + n then .error c.pos
  else .ok (blockField c.bytes c.pos n, { c with pos := c.pos + n })

/-- One `read_bits` for each width, in order. -/
def readMany : List Nat → Cursor → Except Nat (List Nat × Cursor)
  | [], c => .ok ([], c)
  | n :: ns, c =>
    match readBits n c with
    | .error e => .error e
    | .ok (v, c1) =>
      match readMany ns c1 with
      | .error e => .error e
      | .ok (vs, c2) => .ok (v :: vs, c2)

end Sys2Proof.Machine
end

