-- ==== Sys2Proof/Machine/Ops.lean ====
section
/-! DEFINITION. The named operations every instruction and phase is built from: starting a DECODE (spec 44_raster R252),
taking a failure (60_exceptions R290), the two completions (44_raster R258, R260), releasing internal registers whose
contents the spec leaves unspecified, and writing a decoded block to the raster (44_raster R254). -/

namespace Sys2Proof.Machine

/-- What the internal registers hold once a DECODE has ended: any value (10_state R45, 93_implementation_defined I7). -/
def releaseEngine (s : State) : State :=
  { s with
    parse := Config.leftoverParse s.draws
    loc := Config.leftoverLocate s.draws
    ras := Config.leftoverRaster s.draws
    bc7 := Config.leftoverBc7 s.draws
    dxt := Config.leftoverDxt s.draws
    draws := s.draws + 1 }

/-- What the block datapath holds once a block is done: nothing survives (10_state R43, R44), so any value (I7). -/
def releaseDatapath (s : State) : State :=
  { s with
    bc7 := Config.leftoverBc7 s.draws
    dxt := Config.leftoverDxt s.draws
    draws := s.draws + 1 }

/-- The start of a DECODE, in one step before PARSE (44_raster R252). -/
def startDecode (s : State) : State :=
  { s with
    status := { busy := true, done := false, rasterValid := false, ptValid := false, result := .none }
    outWidth := 0
    outHeight := 0
    outFormat := 0
    ptOffset := 0
    ptLength := 0
    errInfo := 0
    errBlock := 0
    sliceOffset := 0
    sliceSize := 0
    hdr := HeaderRegs.zero
    phase := .parse }

/-- TAKING A FAILURE, `raise Fail(code, sub)` (60_exceptions R290), all in one step: ERR_INFO for a structural failure,
RESULT, both validity bits clear, BUSY clear, DONE set, phase IDLE. It uses no vector, no stack and no mode (R288), there
is no return from it (R291), and the internal registers are then unspecified. -/
def raiseFail (f : Failure) (s : State) : State :=
  releaseEngine
    { s with
      errInfo := if failureResult f = .errStructural then failureInfo f else s.errInfo
      status := { busy := false, done := true, rasterValid := false, ptValid := false, result := failureResult f }
      phase := .idle }

/-- A BC7 block's failure (44_raster R256): ERR_BLOCK is the block's index, then the failure ends the DECODE. -/
def raiseBlockFail (f : Failure) (k : Nat) (s : State) : State :=
  raiseFail f { s with errBlock := BitVec.ofNat 32 k }

/-- Success (44_raster R258), in one step. -/
def completeOk (s : State) : State :=
  releaseEngine
    { s with
      outWidth := BitVec.ofNat 32 s.ras.W
      outHeight := BitVec.ofNat 32 s.ras.H
      status := { busy := false, done := true, rasterValid := true, ptValid := s.status.ptValid, result := .ok }
      phase := .idle }

/-- Pass-through (40_container R136, 44_raster R260), in one step: the blob is IN from the header length to the end of the
stream. -/
def completePassThrough (s : State) : State :=
  releaseEngine
    { s with
      outFormat := outFormatWord .passThrough false
      ptOffset := BitVec.ofNat 32 s.parse.hl
      ptLength := BitVec.ofNat 32 (streamLength s - s.parse.hl)
      status := { busy := false, done := true, rasterValid := s.status.rasterValid, ptValid := true, result := .passThrough }
      phase := .idle }

/-- The register word for an exact slice position or size `v` (40_container R143): itself where it fits; the spec states
no value where it does not, so the free value of `v` (log entry 7). Nothing but `v` enters, so equal operands give equal
registers (44_raster R250). -/
def sliceWord (unfit : Nat → Word) (v : Nat) : Word := if v < 2 ^ 32 then BitVec.ofNat 32 v else unfit v

/-! ## The raster -/

/-- The bytes of the raster, `4·W·H` (20_memory R62). -/
def rasterBytes (s : State) : Nat := 4 * s.ras.W * s.ras.H

/-- The raster fits OUT, as ALLOC has checked (44_raster R253). -/
def rasterFits (s : State) : Bool := decide (rasterBytes s ≤ s.cfg.outCapacity)

/-- The linear index `by · BW + bx` of the current block (44_raster R254). -/
def blockIndex (s : State) : Nat := s.ras.blkY * s.ras.BW + s.ras.blkX

/-- The OUT address of pixel `(X, Y)` in a raster of width `W` (20_memory R62). -/
def pixelAddr (W X Y : Nat) : Nat := 4 * (Y * W + X)

/-- The four OUT bytes of a pixel, `r, g, b, a` in that order (20_memory R62). -/
def pixelBytes (p : Pixel) : List Byte := [p.r, p.g, p.b, p.a]

/-- Writes pixel `i` of block `(bx, by)`, unless it lies outside the image (44_raster R254). -/
def writePixel (r : RasterRegs) (m : Memory) (i : Nat) (p : Pixel) : Memory :=
  let X := 4 * r.blkX + i % 4
  let Y := 4 * r.blkY + i / 4
  if X < r.W ∧ Y < r.H then m.writeList (pixelAddr r.W X Y) (pixelBytes p) else m

/-- Writes the pixels of a block from pixel `i` on, in order (44_raster R254). -/
def writePixels (r : RasterRegs) : Memory → Nat → List Pixel → Memory
  | m, _, [] => m
  | m, i, p :: ps => writePixels r (writePixel r m i p) (i + 1) ps

/-- The next block of the row-major order; after the last block the phase is ALPHA (44_raster R251, R254). -/
def nextBlock (s : State) : State :=
  if s.ras.blkX + 1 < s.ras.BW then { s with ras := { s.ras with blkX := s.ras.blkX + 1 } }
  else if s.ras.blkY + 1 < s.ras.BH then { s with ras := { s.ras with blkX := 0, blkY := s.ras.blkY + 1 } }
  else { s with ras := { s.ras with blkX := 0, blkY := s.ras.blkY + 1 }, phase := .alpha }

/-- The end of a block's decode: its 16 pixels go to the raster, clipped to the image (44_raster R254), the datapath is
released, and the next block is due. A raster that does not fit OUT has bytes that do not exist: a fault. -/
def finishBlock (px : List Pixel) (s : State) : Host.Outcome State Fault Refusal :=
  if rasterFits s then .next (nextBlock (releaseDatapath { s with outMem := writePixels s.ras s.outMem 0 px }))
  else .fault .rasterOutsideOut

end Sys2Proof.Machine
end

