-- ==== Sys2Proof/Machine/Bc7.lean ====
section
/-! DEFINITION. The BC7 block decoder (spec 42_bc7): the shared datapath in the spec's step order (R184 to R197) and the
meanings of the eight modes (R200 to R207) and of the reserved mode (R208). The datapath reads the block's 128 bits
through the bit cursor (R180, R181), field after field (30_encoding R98). -/

namespace Sys2Proof.Machine

/-- The widths of the 16 primary indices: one bit fewer at each anchor (42_bc7 R191). -/
def primaryWidths (row : ModeRow) (shape : Nat) : List Nat :=
  (List.range 16).map fun i => if i ∈ anchors row.ns shape then row.ib - 1 else row.ib

/-- The widths of the 16 secondary indices, none when the mode has no second plane (42_bc7 R192). -/
def secondaryWidths (row : ModeRow) : List Nat :=
  if row.ib2 = 0 then [] else (List.range 16).map fun i => if i = 0 then row.ib2 - 1 else row.ib2

/-- The widths of the endpoint channel fields: all `E` reds, then greens, blues and alphas (42_bc7 R186, channel-major). -/
def endpointWidths (row : ModeRow) : List Nat := row.prec.flatMap fun n => List.replicate (2 * row.ns) n

/-- The endpoints `ep[e][ch]` from the channel-major values (42_bc7 R186). -/
def endpointRows (row : ModeRow) (vals : List Nat) : List (List Nat) :=
  (List.range (2 * row.ns)).map fun e => (List.range 4).map fun ch => vals.getD (ch * (2 * row.ns) + e) 0

/-- P-bit application to one channel value (42_bc7 R188). -/
def withPBit (row : ModeRow) (ch v pbit : Nat) : Nat :=
  if row.precP.getD ch 0 > row.prec.getD ch 0 then (v <<< 1) ||| pbit else v

/-- P-bit application (42_bc7 R188): endpoint `e` takes p-bit `(e · NP) / E`. -/
def applyPBits (row : ModeRow) (p : List Nat) (ep : List (List Nat)) : List (List Nat) :=
  if row.np = 0 then ep
  else ep.mapIdx fun e chans => chans.mapIdx fun ch v => withPBit row ch v (p.getD (e * row.np / (2 * row.ns)) 0)

/-- Unquantisation of a `p`-bit value to 8 bits (42_bc7 R189, 90_conflicts C6). -/
def unquantise (p v : Nat) : Nat :=
  let t := v <<< (8 - p)
  t ||| (t >>> p)

/-- The 8-bit endpoint channel (42_bc7 R189); a channel the mode lacks, which is alpha, is 255 (R190). -/
def endpoint8 (row : ModeRow) (ep : List (List Nat)) (e ch : Nat) : Nat :=
  if row.precP.getD ch 0 = 0 then 255 else unquantise (row.precP.getD ch 0) ((ep.getD e []).getD ch 0)

/-- The whole field read of a block of mode `mode` (42_bc7 R182, R184 to R188, R191, R192): the cursor starts behind the
mode prefix. The error is the position of a field that would pass bit 128 (R181). -/
def loadBc7 (mode : Nat) (bytes : List Byte) : Except Nat Bc7Regs :=
  let row := modeRow mode
  match readMany [row.pb, row.rb, row.isb] ⟨bytes, mode + 1⟩ with
  | .error e => .error e
  | .ok (hdr, c1) =>
    match readMany (endpointWidths row) c1 with
    | .error e => .error e
    | .ok (raw, c2) =>
      match readMany (List.replicate row.np 1) c2 with
      | .error e => .error e
      | .ok (p, c3) =>
        match readMany (primaryWidths row (hdr.getD 0 0)) c3 with
        | .error e => .error e
        | .ok (i1, c4) =>
          match readMany (secondaryWidths row) c4 with
          | .error e => .error e
          | .ok (i2, c5) =>
            .ok { cursor := c5, mode := mode, shape := hdr.getD 0 0, rot := hdr.getD 1 0, isel := hdr.getD 2 0,
                  ep := applyPBits row p (endpointRows row raw), p := p, i1 := i1, i2 := i2 }

/-- The weight of pixel `i` for colour (42_bc7 R193). -/
def colourWeight (row : ModeRow) (d : Bc7Regs) (i : Nat) : Nat :=
  if row.ib2 = 0 then weight row.ib (d.i1.getD i 0)
  else if d.isel = 0 then weight row.ib (d.i1.getD i 0)
  else weight row.ib2 (d.i2.getD i 0)

/-- The weight of pixel `i` for alpha (42_bc7 R193): the shared plane, or the plane colour does not take. -/
def alphaWeight (row : ModeRow) (d : Bc7Regs) (i : Nat) : Nat :=
  if row.ib2 = 0 then weight row.ib (d.i1.getD i 0)
  else if d.isel = 0 then weight row.ib2 (d.i2.getD i 0)
  else weight row.ib (d.i1.getD i 0)

/-- Interpolation `(A·(64 − w) + B·w + 32) >> 6` (42_bc7 R194). -/
def interpolate (A B w : Nat) : Nat := (A * (64 - w) + B * w + 32) >>> 6

/-- Rotation (42_bc7 R195): 1 swaps red and alpha, 2 green and alpha, 3 blue and alpha. -/
def rotate (rot : Nat) (p : Pixel) : Pixel :=
  match rot with
  | 1 => { p with r := p.a, a := p.r }
  | 2 => { p with g := p.a, a := p.g }
  | 3 => { p with b := p.a, a := p.b }
  | _ => p

/-- The sRGB transfer on red, green and blue, alpha untouched (42_bc7 R196). -/
def srgbPixel (srgb : Bool) (p : Pixel) : Pixel :=
  if srgb then { p with r := srgbOf p.r, g := srgbOf p.g, b := srgbOf p.b } else p

/-- Pixel `i` before rotation: the endpoints of its subset interpolated channel by channel (42_bc7 R194). -/
def interpolatedPixel (d : Bc7Regs) (i : Nat) : Pixel :=
  let row := modeRow d.mode
  let e := 2 * partitionOf row.ns d.shape i
  let wc := colourWeight row d i
  let wa := alphaWeight row d i
  { r := BitVec.ofNat 8 (interpolate (endpoint8 row d.ep e 0) (endpoint8 row d.ep (e + 1) 0) wc)
    g := BitVec.ofNat 8 (interpolate (endpoint8 row d.ep e 1) (endpoint8 row d.ep (e + 1) 1) wc)
    b := BitVec.ofNat 8 (interpolate (endpoint8 row d.ep e 2) (endpoint8 row d.ep (e + 1) 2) wc)
    a := BitVec.ofNat 8 (interpolate (endpoint8 row d.ep e 3) (endpoint8 row d.ep (e + 1) 3) wa) }

/-- The 16 pixels of a BC7 block, pixel 0 first: interpolation, rotation, then the sRGB transfer (42_bc7 R194 to R197). -/
def bc7Pixels (srgb : Bool) (d : Bc7Regs) : List Pixel :=
  (List.range 16).map fun i => srgbPixel srgb (rotate d.rot (interpolatedPixel d i))

/-- One BC7 block of mode `mode` (42_bc7 R182 to R197): the fields are read, the pixels computed and written. A field past
bit 128 fails the whole DECODE with the mode and the position (R181, 44_raster R256). -/
def bc7Block (mode : Nat) (bytes : List Byte) (s : State) : Host.Outcome State Fault Refusal :=
  match loadBc7 mode bytes with
  | .error pos => .next (raiseBlockFail (.bc7BitBudget mode pos) (blockIndex s) s)
  | .ok d => finishBlock (bc7Pixels s.loc.srgb d) { s with bc7 := d }

/-- BC7 mode 0 (42_bc7 R200). -/
def execBc7Mode0 (shape : BitVec 4) (r g b : BitVec 24) (p : BitVec 6) (i1 : BitVec 45) (s : State) :
    Host.Outcome State Fault Refusal :=
  bc7Block 0 (bc7Bytes (.bc7Mode0 shape r g b p i1)) s

/-- BC7 mode 1 (42_bc7 R201). -/
def execBc7Mode1 (shape : BitVec 6) (r g b : BitVec 24) (p : BitVec 2) (i1 : BitVec 46) (s : State) :
    Host.Outcome State Fault Refusal :=
  bc7Block 1 (bc7Bytes (.bc7Mode1 shape r g b p i1)) s

/-- BC7 mode 2 (42_bc7 R202). -/
def execBc7Mode2 (shape : BitVec 6) (r g b : BitVec 30) (i1 : BitVec 29) (s : State) :
    Host.Outcome State Fault Refusal :=
  bc7Block 2 (bc7Bytes (.bc7Mode2 shape r g b i1)) s

/-- BC7 mode 3 (42_bc7 R203). -/
def execBc7Mode3 (shape : BitVec 6) (r g b : BitVec 28) (p : BitVec 4) (i1 : BitVec 30) (s : State) :
    Host.Outcome State Fault Refusal :=
  bc7Block 3 (bc7Bytes (.bc7Mode3 shape r g b p i1)) s

/-- BC7 mode 4 (42_bc7 R204). -/
def execBc7Mode4 (rot : BitVec 2) (isel : BitVec 1) (r g b : BitVec 10) (a : BitVec 12) (i1 : BitVec 31)
    (i2 : BitVec 47) (s : State) : Host.Outcome State Fault Refusal :=
  bc7Block 4 (bc7Bytes (.bc7Mode4 rot isel r g b a i1 i2)) s

/-- BC7 mode 5 (42_bc7 R205). -/
def execBc7Mode5 (rot : BitVec 2) (r g b : BitVec 14) (a : BitVec 16) (i1 i2 : BitVec 31) (s : State) :
    Host.Outcome State Fault Refusal :=
  bc7Block 5 (bc7Bytes (.bc7Mode5 rot r g b a i1 i2)) s

/-- BC7 mode 6 (42_bc7 R206). -/
def execBc7Mode6 (r g b a : BitVec 14) (p : BitVec 2) (i1 : BitVec 63) (s : State) :
    Host.Outcome State Fault Refusal :=
  bc7Block 6 (bc7Bytes (.bc7Mode6 r g b a p i1)) s

/-- BC7 mode 7 (42_bc7 R207). -/
def execBc7Mode7 (shape : BitVec 6) (r g b a : BitVec 20) (p : BitVec 4) (i1 : BitVec 30) (s : State) :
    Host.Outcome State Fault Refusal :=
  bc7Block 7 (bc7Bytes (.bc7Mode7 shape r g b a p i1)) s

/-- The BC7 reserved mode (42_bc7 R183, R208): no field is read and no pixel produced; the DECODE ends with
ERR_STRUCTURAL, ERR_INFO 0x0883 and ERR_BLOCK the block's index. The other 120 bits are not read. -/
def execBc7Reserved (_rest : BitVec 120) (s : State) : Host.Outcome State Fault Refusal :=
  .next (raiseBlockFail .bc7ReservedMode (blockIndex s) s)

end Sys2Proof.Machine
end

