-- ==== Sys2Proof/Machine/Container.lean ====
section
/-! DEFINITION. The phases PARSE, RESOLVE and LOCATE of a DECODE (spec 40_container): the header parser (R120 to R127), the
format resolver (R129 to R137) and the mip and slice locator (R138 to R146). Each phase acts only when it is the
sequencer's phase (10_state R39), so a failure or a pass-through, which leaves phase IDLE, skips the ones after it. -/

namespace Sys2Proof.Machine

/-! ## PARSE -/

/-- `MAGIC`, the bytes "DDS " (30_encoding R84). -/
def magicWord : Word := 0x20534444

/-- `FOURCC_DX10` (30_encoding R84). -/
def fourccDx10 : Word := 0x30315844

/-- The FourCC-valid flag of the pixel-format flags, bit 2 (30_encoding R82, R84 DDPF_FOURCC). -/
def fourccValid (pff : Word) : Bool := pff.getLsbD 2

/-- `hasDx10`: the FourCC is valid and is "DX10" (40_container R121, R125). -/
def announcesDx10 (pff fcc : Word) : Bool := fourccValid pff && fcc == fourccDx10

/-- Normalised mip count (40_container R123). -/
def normaliseMips (mipRaw : Word) : Nat := if mipRaw.toNat = 0 then 1 else mipRaw.toNat

/-- Cubemap, caps2 bit 9 (40_container R124, 30_encoding R84 DDSCAPS2_CUBEMAP). -/
def isCubemap (caps2 : Word) : Bool := caps2.getLsbD 9

/-- Header length (40_container R126, 30_encoding R88). -/
def headerLength (hasDx10 : Bool) : Nat := if hasDx10 then 148 else 128

/-- The DX10 header is announced by the primary header in IN (40_container R121). -/
def streamHasDx10 (s : State) : Bool := announcesDx10 (inWord s 80) (inWord s 84)

/-- A DX10 word, 0 when there is no DX10 header (40_container R122, R127). -/
def dx10Word (s : State) (addr : Nat) : Word := if streamHasDx10 s then inWord s addr else 0

/-- The parse registers of a whole header (40_container R122 to R126; offsets of 30_encoding R81 to R83). Without a DX10
header the spec defines no `dxgi`: its register keeps what it held, and nothing reads it. -/
def parsedRegs (s : State) : ParseRegs where
  hl := headerLength (streamHasDx10 s)
  hasDx10 := streamHasDx10 s
  cubemap := isCubemap (inWord s 112)
  mips := normaliseMips (inWord s 28)
  baseW := inRead s 16 4
  baseH := inRead s 12 4
  pff := inWord s 80
  fcc := inWord s 84
  rgbBits := inWord s 88
  dxgi := if streamHasDx10 s then inWord s 128 else s.parse.dxgi

/-- The header mirror registers of a whole header (40_container R127). -/
def mirroredHeader (s : State) : HeaderRegs where
  magic := inWord s 0
  width := inWord s 16
  height := inWord s 12
  pitch := inWord s 20
  mipCount := inWord s 28
  pfFlags := inWord s 80
  fourCC := inWord s 84
  rgbBitCount := inWord s 88
  rMask := inWord s 92
  gMask := inWord s 96
  bMask := inWord s 100
  aMask := inWord s 104
  caps := inWord s 108
  caps2 := inWord s 112
  dxgi := dx10Word s 128
  resDim := dx10Word s 132
  miscFlag := dx10Word s 136
  arraySize := dx10Word s 140
  miscFlags2 := dx10Word s 144
  info := hdrInfoWord (streamHasDx10 s) (isCubemap (inWord s 112))
  mipsEff := BitVec.ofNat 32 (normaliseMips (inWord s 28))
  length := BitVec.ofNat 32 (headerLength (streamHasDx10 s))

/-- The failure of PARSE, if any, in the order of 40_container R120 and R121 (60_exceptions R287, 1 to 4). -/
def parseFailure (s : State) : Option Failure :=
  if streamLength s < 4 then some .truncHeader
  else if inWord s 0 ≠ magicWord then some .badMagic
  else if streamLength s < 128 then some .truncHeader
  else if streamHasDx10 s = true ∧ streamLength s < 148 then some .truncHeader
  else none

/-- PARSE (40_container R120 to R127): fail, or write the parse registers and the mirrors in one step and put the cursor
behind the header (R126). -/
def parsePhase (s : State) : State :=
  if s.phase = .parse then
    match parseFailure s with
    | some f => raiseFail f s
    | none =>
      { s with
        parse := parsedRegs s
        hdr := mirroredHeader s
        loc := { s.loc with pos := headerLength (streamHasDx10 s) }
        phase := .resolve }
  else s

/-! ## RESOLVE -/

/-- `BPP_TABLE[code]`, 0 for a code in no row (00_scope R8, 93_implementation_defined I13). -/
def bppOf (table : List (Nat × Nat × Nat)) (code : Nat) : Nat :=
  match table with
  | [] => 0
  | row :: rest => if row.1 ≤ code ∧ code ≤ row.2.1 then row.2.2 else bppOf rest code

/-- The DX10 path (40_container R130, 30_encoding R86), the tests in the order written: format and SRGB. -/
def resolveDxgi (cfg : Params) (dxgi : Nat) : BlockFormat × Bool :=
  if dxgi ∈ [70, 71, 72] then (.dxt1, false)
  else if dxgi ∈ [73, 74, 75] then (.dxt3, false)
  else if dxgi ∈ [76, 77, 78] then (.dxt5, false)
  else if dxgi ∈ [97, 98] then (.bc7, false)
  else if dxgi = 99 then (.bc7, true)
  else if dxgi ∈ [79, 80, 81, 82, 83, 84, 94, 95, 96] then (.unsupported, false)
  else if dxgi ∈ [68, 69] then (.uncompressed, false)
  else if bppOf cfg.bppTable dxgi > 0 then (.uncompressed, false)
  else (.passThrough, false)

/-- The FourCC path (40_container R131, 30_encoding R85). -/
def resolveFourCC (cfg : Params) (fcc : Word) : BlockFormat :=
  if fcc = 0x31545844 then .dxt1
  else if fcc = 0x33545844 then .dxt3
  else if fcc = 0x35545844 then .dxt5
  else if fcc ∈ cfg.fourccUnsupported then .unsupported
  else .passThrough

/-- The resolver (40_container R129): exactly one of the DX10 path (R130), the FourCC path (R131) and the path without a
FourCC (R132) applies; the result is the format and SRGB. -/
def resolveFormat (cfg : Params) (p : ParseRegs) : BlockFormat × Bool :=
  if p.hasDx10 then resolveDxgi cfg p.dxgi.toNat
  else if fourccValid p.pff then (resolveFourCC cfg p.fcc, false)
  else if p.rgbBits.toNat > 0 then (.uncompressed, false)
  else (.passThrough, false)

/-- `bs`, the bytes per block of a format with a block decoder (40_container R130, R131); the resolver writes none for the
other formats, and nothing reads it there. -/
def blockBytesOf (fmt : BlockFormat) (old : Nat) : Nat :=
  match fmt with
  | .dxt1 => 8
  | .dxt3 | .dxt5 | .bc7 => 16
  | .none | .uncompressed | .unsupported | .passThrough => old

/-- RESOLVE (40_container R129 to R137): a pass-through completes the DECODE (R136); otherwise OUT_FORMAT is written, and an
unsupported or uncompressed format fails (R137). -/
def resolvePhase (s : State) : State :=
  if s.phase = .resolve then
    let res := resolveFormat s.cfg s.parse
    let s1 := { s with loc := { s.loc with fmt := res.1, srgb := res.2, bs := blockBytesOf res.1 s.loc.bs } }
    match res.1 with
    | .passThrough => completePassThrough s1
    | .unsupported | .uncompressed => raiseFail .unsupported { s1 with outFormat := outFormatWord res.1 res.2 }
    | .none | .dxt1 | .dxt3 | .dxt5 | .bc7 => { s1 with outFormat := outFormatWord res.1 res.2, phase := .locate }
  else s

/-! ## LOCATE -/

/-- `slices`: 6 faces for a cubemap, else 1 (40_container R138). -/
def sliceCount (p : ParseRegs) : Nat := if p.cubemap then 6 else 1

/-- The request is unset: either requested dimension is not positive (40_container R138). -/
def wantBase (s : State) : Bool := decide (sext32 s.reqWidth ≤ 0 ∨ sext32 s.reqHeight ≤ 0)

/-- Level dimension `max(1, base >> L)`, an exact shift (40_container R139). -/
def levelDim (base L : Nat) : Nat := max 1 (base >>> L)

/-- Blocks along a dimension, `(d + 3) / 4` (10_state R42). -/
def blocksAlong (d : Nat) : Nat := (d + 3) / 4

/-- Row pitch of a block format, `max(1, (w + 3) / 4) · bs` (40_container R133). -/
def blockPitch (w bs : Nat) : Nat := max 1 (blocksAlong w) * bs

/-- Level size: the pitch times the height in block rows (40_container R140, 90_conflicts C5). -/
def levelSize (w h bs : Nat) : Nat := blockPitch w bs * blocksAlong h

/-- The match predicate of face `f`, level `L` (40_container R141). -/
def matchLevel (s : State) (f L : Nat) : Bool :=
  decide (f = s.reqSlice.toNat) &&
    ((wantBase s && decide (L = 0)) ||
     (!wantBase s && decide (sext32 s.reqWidth = (levelDim s.parse.baseW L : Nat)) &&
       decide (sext32 s.reqHeight = (levelDim s.parse.baseH L : Nat))))

/-- The size of level `L` of the container (40_container R142). -/
def sizeOfLevel (s : State) (L : Nat) : Nat :=
  levelSize (levelDim s.parse.baseW L) (levelDim s.parse.baseH L) s.loc.bs

/-- The locator registers at level `L` of face `f`, with the cursor at `pos` (40_container R142). -/
def locatedAt (s : State) (f L pos : Nat) : LocateRegs :=
  { s.loc with
    face := f
    level := L
    pos := pos
    w := levelDim s.parse.baseW L
    h := levelDim s.parse.baseH L
    size := sizeOfLevel s L }

/-- The walk over the `n` levels left of face `f`, from level `L` with the cursor at `pos` (40_container R142): the
registers at the first match, or the cursor behind the last level. A skip only moves the cursor (R146). -/
def walkLevels (s : State) (f : Nat) : Nat → Nat → Nat → Except Nat LocateRegs
  | 0, _, pos => .error pos
  | n + 1, L, pos =>
    if matchLevel s f L then .ok (locatedAt s f L pos)
    else walkLevels s f n (L + 1) (pos + sizeOfLevel s L)

/-- The walk over the `n` faces left, from face `f` (40_container R142), with the gap between faces (R144). -/
def walkFaces (s : State) : Nat → Nat → Nat → Option LocateRegs
  | 0, _, _ => none
  | n + 1, f, pos =>
    match walkLevels s f s.parse.mips 0 pos with
    | .ok r => some r
    | .error pos' => walkFaces s n (f + 1) (if f + 1 < sliceCount s.parse then pos' + s.cfg.faceGap else pos')

/-- The walk of the whole chain from the header on (40_container R142). -/
def walkChain (s : State) : Option LocateRegs := walkFaces s (sliceCount s.parse) 0 s.parse.hl

/-- The writes of FOUND before its check (40_container R143): the locator registers, the slice registers, `W` and `H`. -/
def writeSlice (r : LocateRegs) (s : State) : State :=
  { s with
    loc := r
    sliceOffset := sliceWord Config.unfitOffset r.pos
    sliceSize := sliceWord Config.unfitSize r.size
    ras := { s.ras with W := r.w, H := r.h } }

/-- FOUND (40_container R143): a slice that ends past the end of the stream fails, with its registers written, else the
phase is ALLOC. -/
def foundSlice (r : LocateRegs) (s : State) : State :=
  if r.pos + r.size > streamLength s then raiseFail .io (writeSlice r s) else { writeSlice r s with phase := .alloc }

/-- LOCATE (40_container R138 to R146). -/
def locatePhase (s : State) : State :=
  if s.phase = .locate then
    match walkChain s with
    | none => raiseFail .notFound s
    | some r => foundSlice r s
  else s

end Sys2Proof.Machine
end

