-- ==== Sys2Proof/Machine/Dxt.lean ====
section
/-! DEFINITION. The DXT1, DXT3 and DXT5 block decoders (spec 41_dxt): the RGB565 expander (R150 to R153), the endpoint
interpolator (R155), the DXT5 alpha palette (R160) and the meanings of the three instructions (R157, R159, R161).
Arithmetic is on exact naturals and is narrowed to a byte at the end (00_scope R12). No DXT block fails (R163). -/

namespace Sys2Proof.Machine

/-- 5-bit expansion (41_dxt R150). -/
def exp5 (v : Nat) : Nat :=
  let t := v * 255 + 16
  ((t >>> 5) + t) >>> 5

/-- 6-bit expansion (41_dxt R151). -/
def exp6 (v : Nat) : Nat :=
  let t := v * 255 + 32
  ((t >>> 6) + t) >>> 6

/-- `Rgb565To888`: red bits 15:11, green 10:5, blue 4:0 (41_dxt R152, 30_encoding R92), as `(r, g, b)`. -/
def rgb565To888 (c : BitVec 16) : Nat × Nat × Nat :=
  (exp5 (c.toNat / 2048 % 32), exp6 (c.toNat / 32 % 64), exp5 (c.toNat % 32))

/-- A pixel from exact channel values, each narrowed to a byte. -/
def mkPixel (r g b a : Nat) : Pixel := ⟨BitVec.ofNat 8 r, BitVec.ofNat 8 g, BitVec.ofNat 8 b, BitVec.ofNat 8 a⟩

/-- An opaque pixel whose channels combine those of two endpoint colours. -/
def mixPixel (f : Nat → Nat → Nat) (p q : Nat × Nat × Nat) : Pixel :=
  mkPixel (f p.1 q.1) (f p.2.1 q.2.1) (f p.2.2 q.2.2) 255

/-- The colour palette (41_dxt R155): the opaque palette when `c0 > c1` as unsigned words or punch-through is not allowed,
else the 1-bit-alpha palette. -/
def palette (c0 c1 : BitVec 16) (allowPunch : Bool) : List Pixel :=
  let p := rgb565To888 c0
  let q := rgb565To888 c1
  if c0.toNat > c1.toNat ∨ allowPunch = false then
    [mixPixel (fun x _ => x) p q, mixPixel (fun _ y => y) p q,
     mixPixel (fun x y => (2 * x + y) / 3) p q, mixPixel (fun x y => (x + 2 * y) / 3) p q]
  else
    [mixPixel (fun x _ => x) p q, mixPixel (fun _ y => y) p q,
     mixPixel (fun x y => (x + y) / 2) p q, mkPixel 0 0 0 0]

/-- The DXT5 alpha palette (41_dxt R160): 7 steps when `a0 > a1`, else 5 steps, then 0 and 255. -/
def alphaPalette (a0 a1 : Byte) : List Byte :=
  let x := a0.toNat
  let y := a1.toNat
  if x > y then
    [a0, a1] ++ [2, 3, 4, 5, 6, 7].map fun i => BitVec.ofNat 8 (((8 - i) * x + (i - 1) * y) / 7)
  else
    [a0, a1] ++ ([2, 3, 4, 5].map fun i => BitVec.ofNat 8 (((6 - i) * x + (i - 1) * y) / 5)) ++ [0, 255]

/-- The palette entry of pixel `i`, `pal[sel[2i+1:2i]]` (41_dxt R157). -/
def palettePixel (d : DxtRegs) (i : Nat) : Pixel := d.pal.getD (colourIndex d.sel i) default

/-- The DXT1 datapath after its operands are read and the palette built (41_dxt R157). -/
def loadDxt1 (c0 c1 : BitVec 16) (sel : BitVec 32) (d : DxtRegs) : DxtRegs :=
  { d with c0 := c0, c1 := c1, sel := sel, pal := palette c0 c1 true }

/-- The colour half of a DXT3 or DXT5 block: the opaque palette always (41_dxt R159, R161). -/
def loadColour (c0 c1 : BitVec 16) (sel : BitVec 32) (d : DxtRegs) : DxtRegs :=
  { d with c0 := c0, c1 := c1, sel := sel, pal := palette c0 c1 false }

/-- The DXT5 datapath (41_dxt R161): the alpha half, then the colour half. -/
def loadDxt5 (a0 a1 : Byte) (asel : BitVec 48) (c0 c1 : BitVec 16) (sel : BitVec 32) (d : DxtRegs) : DxtRegs :=
  loadColour c0 c1 sel { d with a0 := a0, a1 := a1, asel := asel, apal := alphaPalette a0 a1 }

/-- The 16 pixels of a DXT1 block, pixel 0 first (41_dxt R157). -/
def dxt1Pixels (d : DxtRegs) : List Pixel := (List.range 16).map (palettePixel d)

/-- The 16 pixels of a DXT3 block: the colour of the palette, the nibble duplicated as alpha (41_dxt R158, R159). -/
def dxt3Pixels (alpha : BitVec 64) (d : DxtRegs) : List Pixel :=
  (List.range 16).map fun i => { palettePixel d i with a := BitVec.ofNat 8 (alphaNibble alpha i * 17) }

/-- The 16 pixels of a DXT5 block: the colour of the palette, the alpha of the alpha palette (41_dxt R161). -/
def dxt5Pixels (d : DxtRegs) : List Pixel :=
  (List.range 16).map fun i => { palettePixel d i with a := d.apal.getD (alphaIndex d.asel i) 0 }

/-- DXT1 (41_dxt R157). -/
def execDxt1 (c0 c1 : BitVec 16) (sel : BitVec 32) (s : State) : Host.Outcome State Fault Refusal :=
  let d := loadDxt1 c0 c1 sel s.dxt
  finishBlock (dxt1Pixels d) { s with dxt := d }

/-- DXT3 (41_dxt R159). -/
def execDxt3 (alpha : BitVec 64) (c0 c1 : BitVec 16) (sel : BitVec 32) (s : State) :
    Host.Outcome State Fault Refusal :=
  let d := loadColour c0 c1 sel s.dxt
  finishBlock (dxt3Pixels alpha d) { s with dxt := d }

/-- DXT5 (41_dxt R161). -/
def execDxt5 (a0 a1 : BitVec 8) (asel : BitVec 48) (c0 c1 : BitVec 16) (sel : BitVec 32) (s : State) :
    Host.Outcome State Fault Refusal :=
  let d := loadDxt5 a0 a1 asel c0 c1 sel s.dxt
  finishBlock (dxt5Pixels d) { s with dxt := d }

end Sys2Proof.Machine
end

