-- ==== Sys2Proof/Machine/Raster.lean ====
section
/-! DEFINITION. The phases ALLOC, DECODE, ALPHA and FINISH (spec 44_raster R253 to R258), the ENGINE running a DECODE to its
end, and the meaning of the DECODE command (R250). -/

namespace Sys2Proof.Machine

/-- ALLOC (44_raster R253): the capacity check, then the block counts; the block counters start at 0 (R254). -/
def allocPhase (s : State) : State :=
  if s.phase = .alloc then
    if rasterFits s then
      { s with
        ras := { s.ras with BW := blocksAlong s.ras.W, BH := blocksAlong s.ras.H, blkX := 0, blkY := 0 }
        phase := .decode }
    else raiseFail .capacity s
  else s

/-- The address of the current block in IN, `SLICE_OFFSET + k · bs` (44_raster R255). -/
def blockAddr (s : State) : Nat := s.sliceOffset.toNat + blockIndex s * s.loc.bs

/-- The block fetch (44_raster R254, R255): the bytes of the current block, decoded under the resolved format (R256). A
byte past the stream, or a format without a block decoder, is reached by no DECODE: a fault. -/
def fetchBlock (s : State) : Except Fault Instr :=
  if blockAddr s + s.loc.bs > streamLength s then .error .readPastEnd
  else
    match decode (.block s.loc.fmt (inBytes s (blockAddr s) s.loc.bs)) with
    | .error _ => .error .noBlockDecoder
    | .ok i => .ok i

/-- The dispatch of a block decode, `decode(fmt, blk)` (44_raster R256): each block instruction's own meaning. DECODE is no
block. -/
def execBlock (i : Instr) (s : State) : Host.Outcome State Fault Refusal :=
  match i with
  | .decode _ => .fault .noBlockDecoder
  | .dxt1 c0 c1 sel => execDxt1 c0 c1 sel s
  | .dxt3 alpha c0 c1 sel => execDxt3 alpha c0 c1 sel s
  | .dxt5 a0 a1 asel c0 c1 sel => execDxt5 a0 a1 asel c0 c1 sel s
  | .bc7Mode0 shape r g b p i1 => execBc7Mode0 shape r g b p i1 s
  | .bc7Mode1 shape r g b p i1 => execBc7Mode1 shape r g b p i1 s
  | .bc7Mode2 shape r g b i1 => execBc7Mode2 shape r g b i1 s
  | .bc7Mode3 shape r g b p i1 => execBc7Mode3 shape r g b p i1 s
  | .bc7Mode4 rot isel r g b a i1 i2 => execBc7Mode4 rot isel r g b a i1 i2 s
  | .bc7Mode5 rot r g b a i1 i2 => execBc7Mode5 rot r g b a i1 i2 s
  | .bc7Mode6 r g b a p i1 => execBc7Mode6 r g b a p i1 s
  | .bc7Mode7 shape r g b a p i1 => execBc7Mode7 shape r g b a p i1 s
  | .bc7Reserved rest => execBc7Reserved rest s

/-- One block of phase DECODE: fetch, decode, run (44_raster R254). -/
def blockStep (s : State) : Host.Outcome State Fault Refusal :=
  match fetchBlock s with
  | .error f => .fault f
  | .ok i => execBlock i s

/-- Phase DECODE for at most `n` blocks (44_raster R254): it ends early when a block leaves the phase. -/
def runBlocks : Nat → State → Host.Outcome State Fault Refusal
  | 0, s => .next s
  | n + 1, s =>
    if s.phase = .decode then
      match blockStep s with
      | .next t => runBlocks n t
      | .fault f => .fault f
      | .refused r => .refused r
    else .next s

/-- Writes 255 to the alpha byte of the raster's first `n` pixels, pixel 0 first (44_raster R257). -/
def forceAlpha : Nat → Memory → Memory
  | 0, m => m
  | n + 1, m => (forceAlpha n m).write (4 * n + 3) 255

/-- ALPHA (44_raster R257). A raster that does not fit OUT is reached by no DECODE: a fault. -/
def alphaPhase (s : State) : Host.Outcome State Fault Refusal :=
  if s.phase = .alpha then
    if ignoreAlpha s then
      if rasterFits s then .next { s with outMem := forceAlpha (s.ras.W * s.ras.H) s.outMem, phase := .finish }
      else .fault .rasterOutsideOut
    else .next { s with phase := .finish }
  else .next s

/-- FINISH (44_raster R258). -/
def finishPhase (s : State) : State := if s.phase = .finish then completeOk s else s

/-- The phases after ALLOC, run to the end of the DECODE (44_raster R250); a DECODE that has ended before them has none of
them to run. -/
def runRaster (s : State) : Host.Outcome State Fault Refusal :=
  if s.phase = .decode then
    match runBlocks (s.ras.BW * s.ras.BH) s with
    | .next t =>
      match alphaPhase t with
      | .next u => .next (finishPhase u)
      | .fault f => .fault f
      | .refused r => .refused r
    | .fault f => .fault f
    | .refused r => .refused r
  else .next s

/-- A started DECODE run to its end: PARSE, RESOLVE, LOCATE, ALLOC, DECODE, ALPHA, FINISH in that order (44_raster R250,
R251). -/
def runDecode (s : State) : Host.Outcome State Fault Refusal :=
  runRaster (allocPhase (locatePhase (resolvePhase (parsePhase s))))

/-- The outside world acts while the coming DECODE runs: its next turn is to leave the ENGINE some steps, and then to act
again. Otherwise it lets the DECODE complete first. -/
def actsDuring (s : State) : Bool :=
  match s.turns with
  | .ticks _ :: _ => true
  | _ => false

/-- DECODE (44_raster R250; the CTRL write of 30_encoding R114). A write with START clear has no effect, and neither has
one while BUSY (10_state R23, R36). Otherwise the DECODE starts (R252); unless the outside world acts before its end, the
whole command is one atomic step (20_memory R70, 70_reset R315), and if it does, the ENGINE's steps follow one by one
(Machine/Fetch.lean). Bits 31:1 of the data are ignored. -/
def execDecode (data : BitVec 32) (s : State) : Host.Outcome State Fault Refusal :=
  if data.getLsbD 0 = false ∨ s.status.busy = true then .next s
  else if actsDuring s then .next (startDecode s)
  else runDecode (startDecode s)

end Sys2Proof.Machine
end

