-- ==== Sys2Proof/Machine/Dispatch.lean ====
section
/-! DEFINITION. The dispatch: one arm per constructor of Instr, each one direct call of that instruction's own meaning. -/

namespace Sys2Proof.Machine

def exec (i : Instr) (s : State) : Host.Outcome State Fault Refusal :=
  match i with
  | .decode data => Sys2Proof.Machine.execDecode data s
  | .dxt1 c0 c1 sel => Sys2Proof.Machine.execDxt1 c0 c1 sel s
  | .dxt3 alpha c0 c1 sel => Sys2Proof.Machine.execDxt3 alpha c0 c1 sel s
  | .dxt5 a0 a1 asel c0 c1 sel => Sys2Proof.Machine.execDxt5 a0 a1 asel c0 c1 sel s
  | .bc7Mode0 shape r g b p i1 => Sys2Proof.Machine.execBc7Mode0 shape r g b p i1 s
  | .bc7Mode1 shape r g b p i1 => Sys2Proof.Machine.execBc7Mode1 shape r g b p i1 s
  | .bc7Mode2 shape r g b i1 => Sys2Proof.Machine.execBc7Mode2 shape r g b i1 s
  | .bc7Mode3 shape r g b p i1 => Sys2Proof.Machine.execBc7Mode3 shape r g b p i1 s
  | .bc7Mode4 rot isel r g b a i1 i2 => Sys2Proof.Machine.execBc7Mode4 rot isel r g b a i1 i2 s
  | .bc7Mode5 rot r g b a i1 i2 => Sys2Proof.Machine.execBc7Mode5 rot r g b a i1 i2 s
  | .bc7Mode6 r g b a p i1 => Sys2Proof.Machine.execBc7Mode6 r g b a p i1 s
  | .bc7Mode7 shape r g b a p i1 => Sys2Proof.Machine.execBc7Mode7 shape r g b a p i1 s
  | .bc7Reserved rest => Sys2Proof.Machine.execBc7Reserved rest s

end Sys2Proof.Machine
end

