-- ==== Sys2Proof/Machine/Hostbus.lean ====
section
/-! DEFINITION. Host accesses to the register block, IN and OUT (spec 10_state R21 to R38, 20_memory R61, R63, 70_reset
R314, R315) and the reset input (70_reset R310 to R312). -/

namespace Sys2Proof.Machine

/-- The bytes of an access (20_memory R61). -/
def widthBytes : Width → Nat
  | .byte => 1
  | .half => 2
  | .word => 4

/-- A naturally aligned access wholly below `cap` (20_memory R61, R63). -/
def accessible (w : Width) (addr cap : Nat) : Bool :=
  decide (addr % widthBytes w = 0 ∧ addr + widthBytes w ≤ cap)

/-- A register access the block serves: 32 bits, naturally aligned (10_state R21). -/
def registerAccess (w : Width) (off : Nat) : Bool := w == .word && decide (off % 4 = 0)

/-- The value of the register at a byte offset (10_state R22); CTRL reads 0 (R23), an unlisted offset reads 0 (R21), and
CAP_IN and CAP_OUT are the capacities modulo 2^32 (R38). -/
def registerValue (s : State) (off : Nat) : Word :=
  match off with
  | 0x04 => statusWord s.status
  | 0x08 => s.inLen
  | 0x0C => s.reqSlice
  | 0x10 => s.reqWidth
  | 0x14 => s.reqHeight
  | 0x18 => s.reqFlags
  | 0x1C => s.outWidth
  | 0x20 => s.outHeight
  | 0x24 => s.outFormat
  | 0x28 => s.ptOffset
  | 0x2C => s.ptLength
  | 0x30 => s.errInfo
  | 0x34 => s.errBlock
  | 0x38 => BitVec.ofNat 32 s.cfg.inCapacity
  | 0x3C => BitVec.ofNat 32 s.cfg.outCapacity
  | 0x40 => s.hdr.magic
  | 0x44 => s.hdr.width
  | 0x48 => s.hdr.height
  | 0x4C => s.hdr.pitch
  | 0x50 => s.hdr.mipCount
  | 0x54 => s.hdr.pfFlags
  | 0x58 => s.hdr.fourCC
  | 0x5C => s.hdr.rgbBitCount
  | 0x60 => s.hdr.rMask
  | 0x64 => s.hdr.gMask
  | 0x68 => s.hdr.bMask
  | 0x6C => s.hdr.aMask
  | 0x70 => s.hdr.caps
  | 0x74 => s.hdr.caps2
  | 0x78 => s.hdr.dxgi
  | 0x7C => s.hdr.resDim
  | 0x80 => s.hdr.miscFlag
  | 0x84 => s.hdr.arraySize
  | 0x88 => s.hdr.miscFlags2
  | 0x8C => s.hdr.info
  | 0x90 => s.hdr.mipsEff
  | 0x94 => s.hdr.length
  | 0x98 => s.sliceOffset
  | 0x9C => s.sliceSize
  | _ => 0

/-- The registers that read an unspecified value while BUSY: `OUT_*`, `PT_*`, `ERR_*`, `HDR_*` and `SLICE_*` (70_reset
R315), at offsets 0x1C to 0x34 and 0x40 to 0x9C (10_state R22). CTRL, STATUS, IN_LEN, `REQ_*` and `CAP_*` read their
values. -/
def unspecifiedWhileBusy (off : Nat) : Bool :=
  decide (off % 4 = 0 ∧ ((0x1C ≤ off ∧ off ≤ 0x34) ∨ (0x40 ≤ off ∧ off ≤ 0x9C)))

/-- A host register read (10_state R21, 70_reset R315); it changes nothing but the bus data and the count of free values. -/
def regRead (w : Width) (off : Nat) (s : State) : State :=
  if registerAccess w off = false then { s with busData := 0 }
  else if s.status.busy = true ∧ unspecifiedWhileBusy off = true then
    { s with busData := Config.freeRegister s.draws, draws := s.draws + 1 }
  else { s with busData := registerValue s off }

/-- A host register write other than to CTRL (10_state R21, R28 to R32): ignored while BUSY (R36), or where the register
is read-only or unlisted. IN_LEN stores at most IN_CAPACITY; REQ_FLAGS stores bit 0 only. -/
def regWrite (w : Width) (off : Nat) (v : Word) (s : State) : State :=
  if registerAccess w off = false ∨ s.status.busy = true then s
  else
    match off with
    | 0x08 => { s with inLen := BitVec.ofNat 32 (min v.toNat s.cfg.inCapacity) }
    | 0x0C => { s with reqSlice := v }
    | 0x10 => { s with reqWidth := v }
    | 0x14 => { s with reqHeight := v }
    | 0x18 => { s with reqFlags := v &&& 1 }
    | _ => s

/-- A host write to IN (20_memory R61): ignored while BUSY (10_state R36), when misaligned, or when it reaches
IN_CAPACITY. -/
def inWrite (w : Width) (addr : Nat) (v : Word) (s : State) : State :=
  if s.status.busy = true ∨ accessible w addr s.cfg.inCapacity = false then s
  else { s with inMem := s.inMem.writeList addr (leBytes (widthBytes w) v.toNat) }

/-- A host read of IN (20_memory R61), served while BUSY too. -/
def inReadAccess (w : Width) (addr : Nat) (s : State) : State :=
  if accessible w addr s.cfg.inCapacity = false then { s with busData := 0 }
  else { s with busData := BitVec.ofNat 32 (inRead s addr (widthBytes w)) }

/-- What a host read of OUT sees of byte `addr` (20_memory R63): the raster byte after an OK DECODE, below `4·W·H` with
the dimensions of OUT_WIDTH and OUT_HEIGHT; else an unspecified value, byte `j` of free value `n`. -/
def visibleOut (s : State) (n addr j : Nat) : Byte :=
  if s.status.busy = false ∧ s.status.rasterValid = true ∧ addr < 4 * s.outWidth.toNat * s.outHeight.toNat then
    (s.outMem.read addr).getD (Config.freeOutByte n j)
  else Config.freeOutByte n j

/-- The bytes a host read of OUT sees, `m` of them from byte `j` of the access on. -/
def visibleOutBytes (s : State) (n addr : Nat) : Nat → Nat → List Byte
  | 0, _ => []
  | m + 1, j => visibleOut s n (addr + j) j :: visibleOutBytes s n addr m (j + 1)

/-- A host read of OUT (20_memory R63): 0 when misaligned or reaching OUT_CAPACITY. -/
def outReadAccess (w : Width) (addr : Nat) (s : State) : State :=
  if accessible w addr s.cfg.outCapacity = false then { s with busData := 0 }
  else
    { s with
      busData := BitVec.ofNat 32 (leNat (visibleOutBytes s s.draws addr (widthBytes w) 0))
      draws := s.draws + 1 }

/-- A host access that is no command (20_memory R64: three separate spaces). The HOST only reads OUT: a write there is
ignored (R63). A CTRL write that decodes to DECODE does not come here (Machine/Fetch.lean). -/
def hostAccess (a : HostAccess) (s : State) : State :=
  match a with
  | .regWrite w off v => regWrite w off v s
  | .regRead w off => regRead w off s
  | .inWrite w addr v => inWrite w addr v s
  | .inRead w addr => inReadAccess w addr s
  | .outWrite _ _ _ => s
  | .outRead w addr => outReadAccess w addr s

/-- The reset input asserted and released (70_reset R310 to R312): every register at its reset value, a DECODE in progress
abandoned, the contents of IN and OUT unspecified anew. What is not the core's stays: the parameters, the world's turns,
the data last read, the count of free values. -/
def applyReset (s : State) : State :=
  { State.reset with
    cfg := s.cfg
    draws := s.draws
    epoch := s.epoch + 1
    turns := s.turns
    busData := s.busData }

end Sys2Proof.Machine
end

