-- ==== Sys2Proof/Machine/Fetch.lean ====
section
/-! DEFINITION. Who moves next and what it runs: the outside world's turns (host accesses, the reset input) and the
ENGINE's sequencer, whose phase plays the part of a program counter (spec 10_state R39, 44_raster R251). The core fetches
no instructions (20_memory R72); an instruction is a CTRL write of START or the decode key of the current block (30_encoding
R80). -/

namespace Sys2Proof.Machine

/-- What the next step is: an instruction to run in a state, a move already made, or a stop. -/
inductive Move where
  | run (i : Instr) (s : State)
  | moved (s : State)
  | stop (f : Fault)
deriving DecidableEq, Repr

/-- The command a host access is, if any: a 32-bit write to CTRL, offset 0, that decodes (10_state R23, 30_encoding R114). -/
def commandOf : HostAccess → Option Instr
  | .regWrite .word 0 v => (decode (.command v)).toOption
  | _ => none

/-- The ENGINE's next step (10_state R39): one phase, or one block of phase DECODE. Idle, it keeps its state (60_exceptions
R295). -/
def engineMove (s : State) : Move :=
  match s.phase with
  | .idle => .moved s
  | .parse => .moved (parsePhase s)
  | .resolve => .moved (resolvePhase s)
  | .locate => .moved (locatePhase s)
  | .alloc => .moved (allocPhase s)
  | .decode =>
    match fetchBlock s with
    | .error f => .stop f
    | .ok i => .run i s
  | .alpha =>
    match alphaPhase s with
    | .next t => .moved t
    | .fault f => .stop f
    | .refused _ => .moved s
  | .finish => .moved (finishPhase s)

/-- The next move: the outside world's next turn, or the ENGINE's where that turn leaves it a step or no turn is left. -/
def nextMove (s : State) : Move :=
  match s.turns with
  | [] => engineMove s
  | .ticks 0 :: rest => .moved { s with turns := rest }
  | .ticks (n + 1) :: rest => engineMove { s with turns := .ticks n :: rest }
  | .rst :: rest => .moved (applyReset { s with turns := rest })
  | .access a :: rest =>
    match commandOf a with
    | some i => .run i { s with turns := rest }
    | none => .moved (hostAccess a { s with turns := rest })

/-- The parts of a state that place a block where the ENGINE fetches it next: a DECODE of a slice of one 4 × 4 block that
is the whole of IN, in phase DECODE, at its block 0; the ENGINE has the next step. -/
def placeBlock (fmt : BlockFormat) (blk : List Byte) (s : State) : State :=
  { s with
    status := { busy := true, done := false, rasterValid := false, ptValid := false, result := .none }
    inLen := BitVec.ofNat 32 blk.length
    inMem := Memory.writeList [] 0 blk
    sliceOffset := 0
    sliceSize := BitVec.ofNat 32 blk.length
    phase := .decode
    loc := { s.loc with fmt := fmt, bs := blk.length }
    ras := ⟨4, 4, 1, 1, 0, 0⟩
    turns := .ticks 1 :: s.turns }

/-- An encoding placed so that the next step runs it: a command is the HOST's next turn, a block the ENGINE's. -/
def placeEncoded (e : Encoded) (s : State) : State :=
  match e with
  | .command data => { s with turns := .access (.regWrite .word 0 data) :: s.turns }
  | .block fmt blk => placeBlock fmt blk s

end Sys2Proof.Machine
end

