-- ==== Sys2Proof/Machine/Step.lean ====
section
/-! DEFINITION. One step of the machine: the move Machine/Fetch.lean names, its instruction run by exec. -/

namespace Sys2Proof.Machine

/-- One step: a turn of the outside world or a step of the ENGINE (spec 00_scope R7, 10_state R39). -/
def step (s : State) : Host.Outcome State Fault Refusal :=
  match nextMove s with
  | .run i t => exec i t
  | .moved t => .next t
  | .stop f => .fault f

/-- `s` with a word of the opcode table placed where the next step takes its instruction from: a CTRL write as the HOST's
next turn, or a block as the current block of a DECODE in progress (log entry 12). -/
def State.withFetchWord (s : State) (nbits w : Nat) : State :=
  match tableWord nbits w with
  | none => s
  | some e => placeEncoded e s

end Sys2Proof.Machine
end

