-- ==== Sys2Proof/Safety.lean ====
section
/-! DEFINITION. What a safe run of the core is, in the terms the statements use: the invariant Inv of every state a run
reaches (from spec 10_state R24, R28, R32, R33, R39, 20_memory R60, R62, 44_raster R253 to R255), and what one block's
decode leaves and changes (44_raster R254). -/

namespace Sys2Proof.Machine

/-! ## The invariant -/

/-- A located slice lies inside the stream and holds the blocks of its level (40_container R140, R143; 44_raster R255). -/
structure SliceReady (s : State) : Prop where
  format : blockLength s.loc.fmt = some s.loc.bs
  width : 1 ≤ s.ras.W ∧ s.ras.W < 2 ^ 32
  height : 1 ≤ s.ras.H ∧ s.ras.H < 2 ^ 32
  size : s.sliceSize.toNat = blocksAlong s.ras.W * blocksAlong s.ras.H * s.loc.bs
  inside : s.sliceOffset.toNat + s.sliceSize.toNat ≤ streamLength s

/-- An allocated raster fits OUT, and the block counters name one of its blocks (44_raster R253, R254). -/
structure RasterReady (s : State) : Prop where
  columns : s.ras.BW = blocksAlong s.ras.W
  rows : s.ras.BH = blocksAlong s.ras.H
  fits : rasterBytes s ≤ s.cfg.outCapacity
  current : s.ras.blkX < s.ras.BW ∧ s.ras.blkY < s.ras.BH

/-- What each phase may rely on from the phases before it (10_state R45). -/
def PhaseInv (s : State) : Prop :=
  match s.phase with
  | .idle | .parse => True
  | .resolve => s.parse.hl ≤ streamLength s ∧ s.parse.baseW < 2 ^ 32 ∧ s.parse.baseH < 2 ^ 32
  | .locate => blockLength s.loc.fmt = some s.loc.bs ∧ s.parse.baseW < 2 ^ 32 ∧ s.parse.baseH < 2 ^ 32
  | .alloc => SliceReady s
  | .decode => SliceReady s ∧ RasterReady s
  | .alpha | .finish => s.ras.W < 2 ^ 32 ∧ s.ras.H < 2 ^ 32 ∧ rasterBytes s ≤ s.cfg.outCapacity

/-- The invariant of every state a run reaches. -/
structure Inv (s : State) : Prop where
  /-- phase is IDLE exactly when BUSY is 0 (10_state R39) -/
  busyPhase : s.status.busy = true ↔ s.phase ≠ .idle
  /-- BUSY and DONE are never both 1 (R24) -/
  busyDone : s.status.busy = true → s.status.done = false
  /-- RESULT is NONE exactly while no DECODE has completed since reset or the last START (R24, R25) -/
  doneResult : s.status.done = true ↔ s.status.result ≠ .none
  /-- RASTER_VALID implies RESULT = OK (R24) -/
  rasterValid : s.status.rasterValid = true → s.status.result = .ok
  /-- PT_VALID implies RESULT = PASSTHROUGH (R24) -/
  ptValid : s.status.ptValid = true → s.status.result = .passThrough
  /-- OUT_WIDTH and OUT_HEIGHT are 0 after every ending but OK (R33) -/
  noRaster : s.status.result ≠ .ok → s.outWidth = 0 ∧ s.outHeight = 0
  /-- the raster shown to the HOST lies inside OUT (20_memory R62, 44_raster R253) -/
  rasterInside : 4 * s.outWidth.toNat * s.outHeight.toNat ≤ s.cfg.outCapacity
  /-- IN_LEN never exceeds IN_CAPACITY (R28) -/
  lengthFits : s.inLen.toNat ≤ s.cfg.inCapacity
  /-- the reserved bits of REQ_FLAGS are 0 (R32) -/
  flagsReserved : s.reqFlags.toNat < 2
  /-- both memories are in canonical form, inside their address spaces (20_memory R60, R62) -/
  inForm : s.inMem.wf
  inBelow : s.inMem.below s.cfg.inCapacity
  outForm : s.outMem.wf
  outBelow : s.outMem.below s.cfg.outCapacity
  /-- what the current phase relies on -/
  phaseReady : PhaseInv s

/-! ## What one block does -/

/-- The pixels `px` of the current block of `s` are in OUT of `t`, clipped to the image, and every other byte of OUT reads
as before (44_raster R254). -/
def BlockWritten (px : Nat → Pixel) (s t : State) : Prop :=
  (∀ i, i < 16 → 4 * s.ras.blkX + i % 4 < s.ras.W → 4 * s.ras.blkY + i / 4 < s.ras.H → ∀ c, c < 4 →
    t.outMem.read (4 * ((4 * s.ras.blkY + i / 4) * s.ras.W + (4 * s.ras.blkX + i % 4)) + c)
      = some ((pixelBytes (px i)).getD c 0)) ∧
  (∀ a, (∀ i, i < 16 → 4 * s.ras.blkX + i % 4 < s.ras.W → 4 * s.ras.blkY + i / 4 < s.ras.H → ∀ c, c < 4 →
      a ≠ 4 * ((4 * s.ras.blkY + i / 4) * s.ras.W + (4 * s.ras.blkX + i % 4)) + c) →
    t.outMem.read a = s.outMem.read a)

/-- The block counters of `t` are those behind the current block of `s` in row-major order, and the phase is ALPHA
exactly behind the last block (44_raster R251, R254). -/
def BlockAdvanced (s t : State) : Prop :=
  t.ras.W = s.ras.W ∧ t.ras.H = s.ras.H ∧ t.ras.BW = s.ras.BW ∧ t.ras.BH = s.ras.BH ∧
  (s.ras.blkX + 1 < s.ras.BW → t.ras.blkX = s.ras.blkX + 1 ∧ t.ras.blkY = s.ras.blkY ∧ t.phase = s.phase) ∧
  (¬ s.ras.blkX + 1 < s.ras.BW → t.ras.blkX = 0 ∧ t.ras.blkY = s.ras.blkY + 1 ∧
    t.phase = if s.ras.blkY + 1 < s.ras.BH then s.phase else .alpha)

/-- Nothing else changes over a block: every register of the register block, IN, the parse and locator registers, the
parameters and what belongs to the outside world (20_memory R72, 10_state R43, R44). The datapath registers are free. -/
def BlockFrame (s t : State) : Prop :=
  t = { s with outMem := t.outMem, ras := t.ras, phase := t.phase, bc7 := t.bc7, dxt := t.dxt, draws := t.draws }

/-- A block's decode with pixels `px` from `s` to `t`: what it writes, where the sequencer goes, what it leaves. -/
def BlockDone (px : Nat → Pixel) (s t : State) : Prop :=
  BlockWritten px s t ∧ BlockAdvanced s t ∧ BlockFrame s t

/-- A failure ends the DECODE from `s` to `t` with `status`, ERR_INFO and ERR_BLOCK as given; no other register, no byte of
IN and no byte of OUT changes (60_exceptions R288, R290). The internal registers are free. -/
def FailedWith (result : Result) (info block : Word) (s t : State) : Prop :=
  t = { s with
    status := { busy := false, done := true, rasterValid := false, ptValid := false, result := result }
    errInfo := info
    errBlock := block
    phase := .idle
    parse := t.parse
    loc := t.loc
    ras := t.ras
    bc7 := t.bc7
    dxt := t.dxt
    draws := t.draws }

/-- A DECODE that the outside world lets run to its end: START is set, the core is not BUSY, and no turn of the outside
world is to fall inside it (44_raster R250, 20_memory R70). -/
abbrev Commanded (data : BitVec 32) (s : State) : Prop :=
  data.getLsbD 0 = true ∧ s.status.busy = false ∧ actsDuring s = false

end Sys2Proof.Machine
end

