-- ==== Sys2Proof/Safety/Reference.lean ====
section
/-! DEFINITION. The rules of the spec as closed forms, for the statements to compare the machine with: what a block's pixels
are by random access into its bits (41_dxt, 42_bc7), and what a whole DECODE answers (40_container, 44_raster,
60_exceptions R287). Nothing here runs in the machine; the constant tables (Machine/Tables.lean) and the reading of IN
(Machine/Operands.lean) are shared with it. -/

namespace Sys2Proof.Rule

open Machine

/-- Bits `lo + n - 1 : lo` of a word (00_scope R10). -/
def field {k : Nat} (w : BitVec k) (lo n : Nat) : Nat := w.toNat / 2 ^ lo % 2 ^ n

/-! ## DXT blocks -/

/-- 5-bit expansion with floor divisions (41_dxt R150). -/
def expand5 (v : Nat) : Nat := ((v * 255 + 16) / 32 + (v * 255 + 16)) / 32

/-- 6-bit expansion with floor divisions (41_dxt R151). -/
def expand6 (v : Nat) : Nat := ((v * 255 + 32) / 64 + (v * 255 + 32)) / 64

/-- Red of an RGB565 word (41_dxt R152). -/
def red (c : BitVec 16) : Nat := expand5 (field c 11 5)

/-- Green of an RGB565 word (41_dxt R152). -/
def green (c : BitVec 16) : Nat := expand6 (field c 5 6)

/-- Blue of an RGB565 word (41_dxt R152). -/
def blue (c : BitVec 16) : Nat := expand5 (field c 0 5)

/-- The opaque palette applies (41_dxt R155). -/
def opaquePalette (c0 c1 : BitVec 16) (punch : Bool) : Bool := decide (c1.toNat < c0.toNat) || !punch

/-- One channel of palette entry `k` (41_dxt R155). -/
def mix (full : Bool) (k x y : Nat) : Nat :=
  match k with
  | 0 => x
  | 1 => y
  | 2 => if full then (2 * x + y) / 3 else (x + y) / 2
  | _ => if full then (x + 2 * y) / 3 else 0

/-- Palette entry `k` (41_dxt R155). -/
def colour (c0 c1 : BitVec 16) (punch : Bool) (k : Nat) : Pixel :=
  let full := opaquePalette c0 c1 punch
  { r := BitVec.ofNat 8 (mix full k (red c0) (red c1))
    g := BitVec.ofNat 8 (mix full k (green c0) (green c1))
    b := BitVec.ofNat 8 (mix full k (blue c0) (blue c1))
    a := if k = 3 ∧ full = false then 0 else 255 }

/-- Pixel `i` of a DXT1 block (41_dxt R157). -/
def dxt1Pixel (c0 c1 : BitVec 16) (sel : BitVec 32) (i : Nat) : Pixel := colour c0 c1 true (field sel (2 * i) 2)

/-- Pixel `i` of a DXT3 block (41_dxt R158, R159). -/
def dxt3Pixel (alpha : BitVec 64) (c0 c1 : BitVec 16) (sel : BitVec 32) (i : Nat) : Pixel :=
  { colour c0 c1 false (field sel (2 * i) 2) with a := BitVec.ofNat 8 (17 * field alpha (4 * i) 4) }

/-- Entry `k` of the DXT5 alpha palette (41_dxt R160). -/
def alphaEntry (a0 a1 : Byte) (k : Nat) : Nat :=
  if k = 0 then a0.toNat
  else if k = 1 then a1.toNat
  else if a0.toNat > a1.toNat then ((8 - k) * a0.toNat + (k - 1) * a1.toNat) / 7
  else if k = 6 then 0
  else if k = 7 then 255
  else ((6 - k) * a0.toNat + (k - 1) * a1.toNat) / 5

/-- Pixel `i` of a DXT5 block (41_dxt R161). -/
def dxt5Pixel (a0 a1 : Byte) (asel : BitVec 48) (c0 c1 : BitVec 16) (sel : BitVec 32) (i : Nat) : Pixel :=
  { colour c0 c1 false (field sel (2 * i) 2) with a := BitVec.ofNat 8 (alphaEntry a0 a1 (field asel (3 * i) 3)) }

/-! ## BC7 blocks -/

/-- The first bit of every field of a mode (30_encoding R99 to R106); `chan` in the order R, G, B, A. A field the mode
lacks has width 0, so its start does not matter. -/
structure Layout where
  shape : Nat
  rot : Nat
  isel : Nat
  chan : List Nat
  p : Nat
  i1 : Nat
  i2 : Nat
deriving DecidableEq, Repr

/-- The layouts of the eight modes (30_encoding R99 to R106). -/
def layoutTable : List Layout :=
  [⟨1, 0, 0, [5, 29, 53, 0], 77, 83, 0⟩,
   ⟨2, 0, 0, [8, 32, 56, 0], 80, 82, 0⟩,
   ⟨3, 0, 0, [9, 39, 69, 0], 0, 99, 0⟩,
   ⟨4, 0, 0, [10, 38, 66, 0], 94, 98, 0⟩,
   ⟨0, 5, 7, [8, 18, 28, 38], 0, 50, 81⟩,
   ⟨0, 6, 0, [8, 22, 36, 50], 0, 66, 97⟩,
   ⟨0, 0, 0, [7, 21, 35, 49], 63, 65, 0⟩,
   ⟨8, 0, 0, [14, 34, 54, 74], 94, 98, 0⟩]

/-- The layout of a mode. -/
def layout (m : Nat) : Layout := layoutTable.getD m ⟨0, 0, 0, [], 0, 0, 0⟩

/-- The shape field of a block of mode `m`. -/
def shape (m : Nat) (w : BitVec 128) : Nat := field w (layout m).shape (modeRow m).pb

/-- The rotation field. -/
def rotation (m : Nat) (w : BitVec 128) : Nat := field w (layout m).rot (modeRow m).rb

/-- The index selector. -/
def selector (m : Nat) (w : BitVec 128) : Nat := field w (layout m).isel (modeRow m).isb

/-- P-bit `j`. -/
def pBit (m : Nat) (w : BitVec 128) (j : Nat) : Nat := field w ((layout m).p + j) 1

/-- The raw value of channel `ch` of endpoint `e`: the channel's values stand one after another, endpoint 0 first. -/
def raw (m : Nat) (w : BitVec 128) (e ch : Nat) : Nat :=
  field w ((layout m).chan.getD ch 0 + e * (modeRow m).prec.getD ch 0) ((modeRow m).prec.getD ch 0)

/-- The value after p-bit application (42_bc7 R188). -/
def augmented (m : Nat) (w : BitVec 128) (e ch : Nat) : Nat :=
  if (modeRow m).precP.getD ch 0 > (modeRow m).prec.getD ch 0 then
    2 * raw m w e ch + pBit m w (e * (modeRow m).np / (2 * (modeRow m).ns))
  else raw m w e ch

/-- The 8-bit endpoint channel (42_bc7 R189, R190). -/
def endpoint (m : Nat) (w : BitVec 128) (e ch : Nat) : Nat :=
  let p := (modeRow m).precP.getD ch 0
  if p = 0 then 255
  else augmented m w e ch * 2 ^ (8 - p) ||| augmented m w e ch * 2 ^ (8 - p) / 2 ^ p

/-- The width of pixel `i`'s primary index (42_bc7 R191). -/
def indexWidth (m shp i : Nat) : Nat :=
  (modeRow m).ib - (if i ∈ anchors (modeRow m).ns shp then 1 else 0)

/-- Where pixel `i`'s primary index starts (30_encoding R107). -/
def indexStart (m shp i : Nat) : Nat := (layout m).i1 + ((List.range i).map (indexWidth m shp)).sum

/-- Pixel `i`'s primary index. -/
def index1 (m : Nat) (w : BitVec 128) (i : Nat) : Nat :=
  field w (indexStart m (shape m w) i) (indexWidth m (shape m w) i)

/-- Pixel `i`'s secondary index (42_bc7 R192): pixel 0's has one bit fewer. -/
def index2 (m : Nat) (w : BitVec 128) (i : Nat) : Nat :=
  if i = 0 then field w (layout m).i2 ((modeRow m).ib2 - 1)
  else field w ((layout m).i2 + i * (modeRow m).ib2 - 1) (modeRow m).ib2

/-- The weight from the primary plane. -/
def weight1 (m : Nat) (w : BitVec 128) (i : Nat) : Nat := weight (modeRow m).ib (index1 m w i)

/-- The weight from the secondary plane. -/
def weight2 (m : Nat) (w : BitVec 128) (i : Nat) : Nat := weight (modeRow m).ib2 (index2 m w i)

/-- The weight of channel `ch` of pixel `i` (42_bc7 R193): one plane serves all, or the selector says which serves alpha. -/
def channelWeight (m : Nat) (w : BitVec 128) (i ch : Nat) : Nat :=
  if (modeRow m).ib2 = 0 then weight1 m w i
  else if ch = 3 ↔ selector m w = 0 then weight2 m w i
  else weight1 m w i

/-- Interpolation of two bytes (42_bc7 R194). -/
def lerp (A B w : Nat) : Nat := (A * (64 - w) + B * w + 32) / 64

/-- Channel `ch` of pixel `i` before rotation (42_bc7 R194). -/
def channel (m : Nat) (w : BitVec 128) (i ch : Nat) : Nat :=
  let s := partitionOf (modeRow m).ns (shape m w) i
  lerp (endpoint m w (2 * s) ch) (endpoint m w (2 * s + 1) ch) (channelWeight m w i ch)

/-- Channel `ch` of pixel `i` after rotation (42_bc7 R195): rotation `q` swaps channels `q - 1` and 3. -/
def rotated (m : Nat) (w : BitVec 128) (i ch : Nat) : Nat :=
  let q := rotation m w
  if q = 0 then channel m w i ch
  else if ch = 3 then channel m w i (q - 1)
  else if ch = q - 1 then channel m w i 3
  else channel m w i ch

/-- Channel `ch` of pixel `i` as it is written (42_bc7 R196): the sRGB transfer leaves alpha alone. -/
def finalChannel (srgb : Bool) (m : Nat) (w : BitVec 128) (i ch : Nat) : Nat :=
  if srgb = true ∧ ch < 3 then srgbTable.getD (rotated m w i ch) 0 else rotated m w i ch

/-- Pixel `i` of a BC7 block of mode `m` (42_bc7 R184 to R197). -/
def bc7Pixel (srgb : Bool) (m : Nat) (w : BitVec 128) (i : Nat) : Pixel :=
  { r := BitVec.ofNat 8 (finalChannel srgb m w i 0)
    g := BitVec.ofNat 8 (finalChannel srgb m w i 1)
    b := BitVec.ofNat 8 (finalChannel srgb m w i 2)
    a := BitVec.ofNat 8 (finalChannel srgb m w i 3) }

/-- The mode of a BC7 block, the position of its first set bit among bits 0 to 7; 8 when there is none (42_bc7 R182). -/
def bc7Mode (w : BitVec 128) : Nat := (List.range 8).findIdx fun k => w.getLsbD k

/-- The mode of an instruction that is a BC7 block of modes 0 to 7. -/
def modeOf : Instr → Option Nat
  | .bc7Mode0 .. => some 0
  | .bc7Mode1 .. => some 1
  | .bc7Mode2 .. => some 2
  | .bc7Mode3 .. => some 3
  | .bc7Mode4 .. => some 4
  | .bc7Mode5 .. => some 5
  | .bc7Mode6 .. => some 6
  | .bc7Mode7 .. => some 7
  | .decode .. | .dxt1 .. | .dxt3 .. | .dxt5 .. | .bc7Reserved .. => none

/-- The decode rule of an instruction (30_encoding R89, R114). -/
def ruleNumber : Instr → Nat
  | .decode .. => 250
  | .dxt1 .. => 157
  | .dxt3 .. => 159
  | .dxt5 .. => 161
  | .bc7Mode0 .. => 200
  | .bc7Mode1 .. => 201
  | .bc7Mode2 .. => 202
  | .bc7Mode3 .. => 203
  | .bc7Mode4 .. => 204
  | .bc7Mode5 .. => 205
  | .bc7Mode6 .. => 206
  | .bc7Mode7 .. => 207
  | .bc7Reserved .. => 208

/-- Pixel `i` of a block with bits `w` under format `fmt` (44_raster R256; field positions of 30_encoding R91 to R94). A
format without a block decoder has no pixel; the value is then of no use. -/
def blockPixel (fmt : BlockFormat) (srgb : Bool) (w : BitVec 128) (i : Nat) : Pixel :=
  match fmt with
  | .dxt1 => dxt1Pixel (w.extractLsb' 0 16) (w.extractLsb' 16 16) (w.extractLsb' 32 32) i
  | .dxt3 => dxt3Pixel (w.extractLsb' 0 64) (w.extractLsb' 64 16) (w.extractLsb' 80 16) (w.extractLsb' 96 32) i
  | .dxt5 =>
    dxt5Pixel (w.extractLsb' 0 8) (w.extractLsb' 8 8) (w.extractLsb' 16 48) (w.extractLsb' 64 16) (w.extractLsb' 80 16)
      (w.extractLsb' 96 32) i
  | .bc7 => bc7Pixel srgb (bc7Mode w) w i
  | .none | .uncompressed | .unsupported | .passThrough => default

/-! ## A whole DECODE -/

/-- The header announces a DX10 header (40_container R121). -/
def dx10 (s : State) : Bool := (inRead s 80 4).testBit 2 && inRead s 84 4 == 0x30315844

/-- The header parses whole (40_container R120, R121). -/
abbrev HeaderWhole (s : State) : Prop :=
  128 ≤ s.inLen.toNat ∧ inRead s 0 4 = 0x20534444 ∧ (dx10 s = true → 148 ≤ s.inLen.toNat)

/-- Header length (40_container R126). -/
def headerLength (s : State) : Nat := if dx10 s then 148 else 128

/-- Number of mip levels (40_container R123). -/
def mips (s : State) : Nat := max 1 (inRead s 28 4)

/-- Cubemap (40_container R124). -/
def cubemap (s : State) : Bool := (inRead s 112 4).testBit 9

/-- Number of faces (40_container R138). -/
def faces (s : State) : Nat := if cubemap s then 6 else 1

/-- The format of a DXGI code (40_container R130, 30_encoding R86), by ranges of codes. -/
def dxgiFormat (cfg : Params) (code : Nat) : BlockFormat :=
  if 70 ≤ code ∧ code ≤ 72 then .dxt1
  else if 73 ≤ code ∧ code ≤ 75 then .dxt3
  else if 76 ≤ code ∧ code ≤ 78 then .dxt5
  else if 97 ≤ code ∧ code ≤ 99 then .bc7
  else if (79 ≤ code ∧ code ≤ 84) ∨ (94 ≤ code ∧ code ≤ 96) then .unsupported
  else if code = 68 ∨ code = 69 ∨ 0 < bppOf cfg.bppTable code then .uncompressed
  else .passThrough

/-- The format of a FourCC (40_container R131, 30_encoding R85): "DXT1" is 0x31545844, and "DXT3", "DXT5" differ in the
highest byte. -/
def fourccFormat (cfg : Params) (code : Word) : BlockFormat :=
  if code.toNat = 0x31545844 then .dxt1
  else if code.toNat = 0x33545844 then .dxt3
  else if code.toNat = 0x35545844 then .dxt5
  else if code ∈ cfg.fourccUnsupported then .unsupported
  else .passThrough

/-- The resolved format (40_container R129 to R132). -/
def format (s : State) : BlockFormat :=
  if dx10 s then dxgiFormat s.cfg (inRead s 128 4)
  else if (inRead s 80 4).testBit 2 then fourccFormat s.cfg (inWord s 84)
  else if 0 < inRead s 88 4 then .uncompressed
  else .passThrough

/-- The SRGB variant (40_container R130): DXGI code 99. -/
def srgb (s : State) : Bool := dx10 s && inRead s 128 4 == 99

/-- Bytes per block of a resolved format (30_encoding R90). -/
def blockBytes (s : State) : Nat := if format s = .dxt1 then 8 else 16

/-- Width of level `L` (40_container R139). -/
def width (s : State) (L : Nat) : Nat := max 1 (inRead s 16 4 / 2 ^ L)

/-- Height of level `L` (40_container R139). -/
def height (s : State) (L : Nat) : Nat := max 1 (inRead s 12 4 / 2 ^ L)

/-- Size of level `L` (40_container R140). -/
def size (s : State) (L : Nat) : Nat := (width s L + 3) / 4 * ((height s L + 3) / 4) * blockBytes s

/-- The request is unset (40_container R138). -/
def unset (s : State) : Bool := decide (s.reqWidth.toInt ≤ 0) || decide (s.reqHeight.toInt ≤ 0)

/-- The level the request matches, if any (40_container R141, R147). -/
def level (s : State) : Option Nat :=
  if s.reqSlice.toNat < faces s then
    if unset s then some 0
    else (List.range (mips s)).find? fun L =>
      decide (s.reqWidth.toInt = width s L) && decide (s.reqHeight.toInt = height s L)
  else none

/-- The bytes of the levels below `L` (40_container R147). -/
def levelsBelow (s : State) (L : Nat) : Nat := ((List.range L).map (size s)).sum

/-- Where level `L` of the requested face starts (40_container R147). -/
def slicePos (s : State) (L : Nat) : Nat :=
  headerLength s + s.reqSlice.toNat * (levelsBelow s (mips s) + s.cfg.faceGap) + levelsBelow s L

/-- Columns of blocks of level `L` (10_state R42). -/
def columns (s : State) (L : Nat) : Nat := (width s L + 3) / 4

/-- Rows of blocks of level `L` (10_state R42). -/
def rows (s : State) (L : Nat) : Nat := (height s L + 3) / 4

/-- The least block of level `L` that is in the BC7 reserved mode, if any (60_exceptions R287, 10). -/
def reservedBlock (s : State) (L : Nat) : Option Nat :=
  (List.range (columns s L * rows s L)).find? fun k =>
    decide (format s = .bc7) && inByte s (slicePos s L + k * 16) == 0

/-- RESULT, ERR_INFO and ERR_BLOCK of a DECODE: the first check that holds decides (60_exceptions R287, R280). -/
def verdict (s : State) : Result × Word × Word :=
  if s.inLen.toNat < 4 then (.errStructural, 0x00F2, 0)
  else if inRead s 0 4 ≠ 0x20534444 then (.errStructural, 0x00F1, 0)
  else if s.inLen.toNat < 128 then (.errStructural, 0x00F2, 0)
  else if dx10 s = true ∧ s.inLen.toNat < 148 then (.errStructural, 0x00F2, 0)
  else if format s = .passThrough then (.passThrough, 0, 0)
  else if format s = .unsupported ∨ format s = .uncompressed then (.errUnsupported, 0, 0)
  else
    match level s with
    | none => (.errNotFound, 0, 0)
    | some L =>
      if slicePos s L + size s L > s.inLen.toNat then (.errIo, 0, 0)
      else if 4 * width s L * height s L > s.cfg.outCapacity then (.errCapacity, 0, 0)
      else
        match reservedBlock s L with
        | some k => (.errStructural, 0x0883, BitVec.ofNat 32 k)
        | none => (.ok, 0, 0)

/-- The bits of block `k` of level `L`: its `bs` bytes from the slice's start (44_raster R255). -/
def blockBits (s : State) (L k : Nat) : BitVec 128 :=
  BitVec.ofNat 128 (inRead s (slicePos s L + k * blockBytes s) (blockBytes s))

/-- The pixel of the raster at `(X, Y)` of level `L`, before ALPHA: tile position `4·(Y & 3) + (X & 3)` of block
`(X / 4, Y / 4)` (44_raster R254). -/
def rasterPixel (s : State) (L X Y : Nat) : Pixel :=
  blockPixel (format s) (srgb s) (blockBits s L (Y / 4 * columns s L + X / 4)) (4 * (Y % 4) + X % 4)

end Sys2Proof.Rule
end

