-- ==== Sys2Proof/Certificates/Slice0/Obligations.lean ====
section
/-! DEFINITION. The statements for the provers (OBLIGATIONS.json lists them). Each docstring says which rule of the spec it
formalises. -/

open Sys2Proof Sys2Proof.Machine

/-! ## Encoding -/

/-- Decoding an encoding gives the instruction back, for every well-formed instruction and every operand value
(30_encoding R89, R91, R93, R94, R96, R99 to R106, R114). -/
def Obligations.DecodeOfEncodeIsIdentity : Prop :=
  ∀ i : Instr, i.wellFormed = true → decode (encode i) = .ok i

/-- Every encoding the decoder accepts is the encoding of the instruction it gives: no bit of a command or block is
dropped. -/
def Obligations.EncodeOfDecodeIsIdentity : Prop :=
  ∀ (e : Encoded) (i : Instr), decode e = .ok i → encode i = e ∧ i.wellFormed = true

/-- The decode key selects exactly one rule (30_encoding R89): R157, R159, R161 by the format alone; for BC7 R200 + m when
the first set bit of the low byte is bit m, and R208 when the low byte is 0. The other formats select none. -/
def Obligations.DecodeKeySelectsOneRule : Prop :=
  (∀ blk : List Byte, blk.length = 8 →
    ∃ i, decode (.block .dxt1 blk) = .ok i ∧ Rule.ruleNumber i = 157) ∧
  (∀ blk : List Byte, blk.length = 16 →
    (∃ i, decode (.block .dxt3 blk) = .ok i ∧ Rule.ruleNumber i = 159) ∧
    (∃ i, decode (.block .dxt5 blk) = .ok i ∧ Rule.ruleNumber i = 161) ∧
    (∃ i, decode (.block .bc7 blk) = .ok i ∧
      (blk.getD 0 0 = 0 → Rule.ruleNumber i = 208) ∧
      ∀ m, m < 8 → (∀ j, j < m → (blk.getD 0 0).getLsbD j = false) → (blk.getD 0 0).getLsbD m = true →
        Rule.ruleNumber i = 200 + m)) ∧
  (∀ (fmt : BlockFormat) (blk : List Byte),
    fmt = .none ∨ fmt = .uncompressed ∨ fmt = .unsupported ∨ fmt = .passThrough →
      decode (.block fmt blk) = .error .noBlockDecoder)

/-- A host write of 32 bits to CTRL with bit 0 set is DECODE and there is no other command: any other access decodes to
none. Bits 31:1 of the data make no difference (30_encoding R114). -/
def Obligations.ControlWriteIsTheOnlyCommand : Prop :=
  (∀ v : Word, v.getLsbD 0 = true → commandOf (.regWrite .word 0 v) = some (.decode v)) ∧
  (∀ (a : HostAccess) (i : Instr), commandOf a = some i →
    ∃ v : Word, a = .regWrite .word 0 v ∧ v.getLsbD 0 = true ∧ i = .decode v) ∧
  (∀ (v v' : Word) (s : State), v.getLsbD 0 = true → v'.getLsbD 0 = true → exec (.decode v) s = exec (.decode v') s)

/-- A few encodings written out from the layout rules decode to the instructions they stand for. -/
def Obligations.SampleEncodingsDecode : Prop :=
  decode (.command 1) = .ok (.decode 1) ∧
  decode (.block .dxt1 [0xFF, 0xFF, 0x00, 0x00, 0xE4, 0x00, 0x00, 0x80]) = .ok (.dxt1 0xFFFF 0x0000 0x800000E4) ∧
  decode (.block .dxt5 [0xFF, 0x01, 0x88, 0, 0, 0, 0, 0x80, 0x1F, 0, 0xE0, 0x07, 0x1B, 0, 0, 0])
    = .ok (.dxt5 0xFF 0x01 0x800000000088 0x001F 0x07E0 0x1B) ∧
  decode (.block .bc7 [0x80, 0x01, 0, 0, 0, 0, 0, 0, 0, 0, 0, 0, 0, 0, 0, 0x80]) = .ok (.bc7Mode7 1 0 0 0 0 0 0x20000000) ∧
  decode (.block .bc7 [0x00, 0x02, 0, 0, 0, 0, 0, 0, 0, 0, 0, 0, 0, 0, 0, 0]) = .ok (.bc7Reserved 2)

/-- The fields but the primary indices, which Bc7IndexPositionsFollowAnchors states, that the datapath reads with the bit
cursor are the bit ranges of the mode's layout (30_encoding R98 to R106,
42_bc7 R185 to R188): for every mode and all 16 bytes the read succeeds and each field is the number at its bits. -/
def Obligations.Bc7FieldsLieAtTheirLayout : Prop :=
  ∀ (m : Nat) (blk : List Byte), m < 8 → blk.length = 16 →
    ∃ d, loadBc7 m blk = .ok d ∧ d.cursor.bytes = blk ∧ d.mode = m ∧
      d.shape = Rule.shape m (blockBits 128 blk) ∧
      d.rot = Rule.rotation m (blockBits 128 blk) ∧
      d.isel = Rule.selector m (blockBits 128 blk) ∧
      (∀ j, j < (modeRow m).np → d.p.getD j 0 = Rule.pBit m (blockBits 128 blk) j) ∧
      (∀ e ch, e < 2 * (modeRow m).ns → ch < 4 → (d.ep.getD e []).getD ch 0 = Rule.augmented m (blockBits 128 blk) e ch) ∧
      (∀ i, i < 16 → (modeRow m).ib2 ≠ 0 → d.i2.getD i 0 = Rule.index2 m (blockBits 128 blk) i)

/-- The primary index of pixel `i` starts behind the indices of the pixels before it, which are one bit shorter at the
anchors; pixel 0 is always an anchor (30_encoding R107). -/
def Obligations.Bc7IndexPositionsFollowAnchors : Prop :=
  (∀ (m : Nat) (blk : List Byte), m < 8 → blk.length = 16 →
    ∃ d, loadBc7 m blk = .ok d ∧
      ∀ i, i < 16 → d.i1.getD i 0 =
        Rule.field (blockBits 128 blk)
          ((Rule.layout m).i1 + ((List.range i).map fun j =>
            if j ∈ anchors (modeRow m).ns d.shape then (modeRow m).ib - 1 else (modeRow m).ib).sum)
          (if i ∈ anchors (modeRow m).ns d.shape then (modeRow m).ib - 1 else (modeRow m).ib)) ∧
  (∀ ns shape, 0 ∈ anchors ns shape)

/-- The fields of each mode total exactly 128 bits, so the bit-budget check never fires, and no BC7 block of modes 0 to 7
ends a DECODE or touches ERR_INFO (42_bc7 R198). -/
def Obligations.Bc7BitBudgetIsExact : Prop :=
  (∀ (m : Nat) (bytes : List Byte), m < 8 → ∃ d, loadBc7 m bytes = .ok d ∧ d.cursor.pos = 128) ∧
  (∀ (i : Instr) (m : Nat) (s t : State), Rule.modeOf i = some m → exec i s = .next t →
    t.errInfo = s.errInfo ∧ t.status = s.status)

/-- The implied top bit of an anchor index is 0 (42_bc7 R191). -/
def Obligations.Bc7AnchorIndexTopBitIsZero : Prop :=
  ∀ (m : Nat) (bytes : List Byte) (d : Bc7Regs), m < 8 → loadBc7 m bytes = .ok d →
    ∀ i ∈ anchors (modeRow m).ns d.shape, d.i1.getD i 0 < 2 ^ ((modeRow m).ib - 1)

/-! ## DXT blocks -/

/-- The expansion tables of 41_dxt R153, and how they differ from exact rounding and from bit replication. -/
def Obligations.ExpansionTablesAreTheFormula : Prop :=
  (List.range 32).map exp5 =
    [0, 8, 16, 25, 33, 41, 49, 58, 66, 74, 82, 90, 99, 107, 115, 123, 132, 140, 148, 156, 164, 173, 181, 189, 197, 205,
     214, 222, 230, 238, 247, 255] ∧
  (List.range 64).map exp6 =
    [0, 4, 8, 12, 16, 20, 24, 28, 32, 36, 40, 45, 49, 53, 57, 61, 65, 69, 73, 77, 81, 85, 89, 93, 97, 101, 105, 109, 113,
     117, 121, 125, 130, 134, 138, 142, 146, 150, 154, 158, 162, 166, 170, 174, 178, 182, 186, 190, 194, 198, 202, 206,
     210, 214, 219, 223, 227, 231, 235, 239, 243, 247, 251, 255] ∧
  (List.range 32).filter (fun v => exp5 v ≠ (2 * v * 255 + 31) / 62) = [20, 25, 29] ∧
  (List.range 64).filter (fun v => exp6 v ≠ (2 * v * 255 + 63) / 126) = [53] ∧
  (List.range 32).filter (fun v => exp5 v ≠ (v <<< 3) ||| (v >>> 2)) = [3, 7, 20, 24, 25, 28, 29] ∧
  (List.range 64).filter (fun v => exp6 v ≠ (v <<< 2) ||| (v >>> 4)) = [11, 12, 13, 14, 15, 48, 49, 50, 51, 52, 53]

/-- Re-quantising an expanded value with round-to-nearest gives the value back, so expansion is idempotent on quantised
inputs (41_dxt R154). -/
def Obligations.ExpansionIsIdempotent : Prop :=
  (∀ v, v < 32 → (31 * exp5 v + 127) / 255 = v ∧ exp5 ((31 * exp5 v + 127) / 255) = exp5 v) ∧
  (∀ v, v < 64 → (63 * exp6 v + 127) / 255 = v ∧ exp6 ((63 * exp6 v + 127) / 255) = exp6 v)

/-- Every palette entry but transparent black is opaque and each of its channels lies between those of the two endpoint
colours (41_dxt R155). -/
def Obligations.PaletteLiesBetweenEndpoints : Prop :=
  ∀ (c0 c1 : BitVec 16) (punch : Bool) (k : Nat), k < 4 → (k = 3 → c1.toNat < c0.toNat ∨ punch = false) →
    ∃ p, (palette c0 c1 punch)[k]? = some p ∧ p.a = 255 ∧
      (min (Rule.red c0) (Rule.red c1) ≤ p.r.toNat ∧ p.r.toNat ≤ max (Rule.red c0) (Rule.red c1)) ∧
      (min (Rule.green c0) (Rule.green c1) ≤ p.g.toNat ∧ p.g.toNat ≤ max (Rule.green c0) (Rule.green c1)) ∧
      (min (Rule.blue c0) (Rule.blue c1) ≤ p.b.toNat ∧ p.b.toNat ≤ max (Rule.blue c0) (Rule.blue c1))

/-- The interpolator laws (41_dxt R156): equal endpoints, the asymmetry of floor division, the floored midpoint and the
red and blue example. -/
def Obligations.InterpolatorLaws : Prop :=
  (∀ c : BitVec 16, (palette c c true)[2]? = (palette c c true)[0]? ∧
    (palette c c true)[3]? = some ⟨0, 0, 0, 0⟩) ∧
  (∀ (c : BitVec 16) (k : Nat), k < 4 → (palette c c false)[k]? =
    some ⟨BitVec.ofNat 8 (Rule.red c), BitVec.ofNat 8 (Rule.green c), BitVec.ofNat 8 (Rule.blue c), 255⟩) ∧
  (∀ (value : BitVec 16 → Nat) (chan : Pixel → Byte) (c0 c1 : BitVec 16),
    (value = Rule.red ∧ chan = Pixel.r) ∨ (value = Rule.green ∧ chan = Pixel.g) ∨ (value = Rule.blue ∧ chan = Pixel.b) →
    (value c0 = 255 → value c1 = 0 → (palette c0 c1 false).map (fun p => (chan p).toNat) = [255, 0, 170, 85]) ∧
    (value c0 = 0 → value c1 = 255 → (palette c0 c1 false).map (fun p => (chan p).toNat) = [0, 255, 85, 170]) ∧
    (value c0 = 255 → value c1 = 0 → c0.toNat ≤ c1.toNat →
      (palette c0 c1 true).map (fun p => (chan p).toNat) = [255, 0, 127, 0]) ∧
    (value c0 = 0 → value c1 = 255 → c0.toNat ≤ c1.toNat →
      (palette c0 c1 true).map (fun p => (chan p).toNat) = [0, 255, 127, 0])) ∧
  palette 0xF800 0x001F true = [⟨255, 0, 0, 255⟩, ⟨0, 0, 255, 255⟩, ⟨170, 0, 85, 255⟩, ⟨85, 0, 170, 255⟩]

/-- The alpha palette (41_dxt R160): its eight entries are those of the rule, and every interpolated one lies between the
two endpoints. -/
def Obligations.AlphaPaletteEntriesAndBounds : Prop :=
  ∀ (a0 a1 : Byte) (k : Nat), k < 8 →
    (alphaPalette a0 a1)[k]? = some (BitVec.ofNat 8 (Rule.alphaEntry a0 a1 k)) ∧
    Rule.alphaEntry a0 a1 k < 256 ∧
    (k < 6 ∨ a1.toNat < a0.toNat →
      min a0.toNat a1.toNat ≤ Rule.alphaEntry a0 a1 k ∧ Rule.alphaEntry a0 a1 k ≤ max a0.toNat a1.toNat)

/-- DXT1 (41_dxt R157): wherever the raster fits OUT the instruction completes; its 16 pixels are those of the rule, placed
and clipped in OUT, every other byte of OUT reads as before, the sequencer goes to the next block, and no other register,
flag or byte of IN changes. -/
def Obligations.Dxt1BlockDecodes : Prop :=
  ∀ (c0 c1 : BitVec 16) (sel : BitVec 32) (s : State), rasterBytes s ≤ s.cfg.outCapacity →
    ∃ t, exec (.dxt1 c0 c1 sel) s = .next t ∧ BlockDone (Rule.dxt1Pixel c0 c1 sel) s t

/-- DXT3 (41_dxt R158, R159): completion, pixels, placement and frame as for DXT1; the palette is always the opaque one. -/
def Obligations.Dxt3BlockDecodes : Prop :=
  ∀ (alpha : BitVec 64) (c0 c1 : BitVec 16) (sel : BitVec 32) (s : State), rasterBytes s ≤ s.cfg.outCapacity →
    ∃ t, exec (.dxt3 alpha c0 c1 sel) s = .next t ∧ BlockDone (Rule.dxt3Pixel alpha c0 c1 sel) s t

/-- DXT5 (41_dxt R160, R161): completion, pixels, placement and frame as for DXT1; the palette is always the opaque one. -/
def Obligations.Dxt5BlockDecodes : Prop :=
  ∀ (a0 a1 : BitVec 8) (asel : BitVec 48) (c0 c1 : BitVec 16) (sel : BitVec 32) (s : State),
    rasterBytes s ≤ s.cfg.outCapacity →
      ∃ t, exec (.dxt5 a0 a1 asel c0 c1 sel) s = .next t ∧ BlockDone (Rule.dxt5Pixel a0 a1 asel c0 c1 sel) s t

/-- The alpha property of DXT1 (41_dxt R157): with `c0 > c1` every pixel the block writes has alpha 255, whatever its
indices; otherwise a pixel whose index is 3 is written as (0, 0, 0, 0). -/
def Obligations.Dxt1AlphaProperty : Prop :=
  ∀ (c0 c1 : BitVec 16) (sel : BitVec 32) (s t : State), exec (.dxt1 c0 c1 sel) s = .next t →
    ∀ i, i < 16 → 4 * s.ras.blkX + i % 4 < s.ras.W → 4 * s.ras.blkY + i / 4 < s.ras.H →
      (c1.toNat < c0.toNat →
        t.outMem.read (4 * ((4 * s.ras.blkY + i / 4) * s.ras.W + (4 * s.ras.blkX + i % 4)) + 3) = some 255) ∧
      (c0.toNat ≤ c1.toNat → Rule.field sel (2 * i) 2 = 3 →
        ∀ c, c < 4 →
          t.outMem.read (4 * ((4 * s.ras.blkY + i / 4) * s.ras.W + (4 * s.ras.blkX + i % 4)) + c) = some 0)

/-! ## BC7 blocks -/

/-- BC7 modes 0 to 7 (42_bc7 R182 to R197, R200 to R207): wherever the raster fits OUT each of the eight instructions
completes; its 16 pixels are those the rules give by random access into its 128 bits, placed and clipped in OUT; every
other byte of OUT reads as before, the sequencer goes to the next block, and nothing else changes. -/
def Obligations.Bc7BlocksDecode : Prop :=
  ∀ (i : Instr) (m : Nat) (s : State), Rule.modeOf i = some m → rasterBytes s ≤ s.cfg.outCapacity →
    ∃ t, exec i s = .next t ∧ BlockDone (Rule.bc7Pixel s.loc.srgb m (bc7Bits i)) s t

/-- The mode-detection law (42_bc7 R209): a block with only bit `k` set decodes under mode `k`, and every pixel is
(0, 0, 0, 255) for `k ≤ 3` and (0, 0, 0, 0) for `k ≥ 4`, with or without SRGB. -/
def Obligations.OnlyBitKSetDecodesUnderModeK : Prop :=
  ∀ (k : Nat) (s : State), k < 8 → rasterBytes s ≤ s.cfg.outCapacity →
    ∃ i t, decode (.block .bc7 (leBytes 16 (2 ^ k))) = .ok i ∧ Rule.modeOf i = some k ∧ exec i s = .next t ∧
      BlockDone (fun _ => if k ≤ 3 then ⟨0, 0, 0, 255⟩ else ⟨0, 0, 0, 0⟩) s t

/-- The reserved mode (42_bc7 R208, R183): whatever its other 120 bits, the DECODE ends at once with ERR_STRUCTURAL,
ERR_INFO 0x0883 and ERR_BLOCK the block's index; no pixel is written and no other register changes. -/
def Obligations.ReservedModeEndsTheDecode : Prop :=
  ∀ (rest : BitVec 120) (s : State),
    ∃ t, exec (.bc7Reserved rest) s = .next t ∧
      FailedWith .errStructural 0x0883 (BitVec.ofNat 32 (s.ras.blkY * s.ras.BW + s.ras.blkX)) s t

/-- The model's own stop (log entry 14; no rule of the spec): a block that decodes to pixels stops with a fault in a state
whose raster does not fit OUT, which ALLOC rules out (44_raster R253). -/
def Obligations.PixelBlocksFaultOutsideOut : Prop :=
  ∀ (i : Instr) (s : State), s.cfg.outCapacity < rasterBytes s →
    (∀ data, i ≠ .decode data) → (∀ rest, i ≠ .bc7Reserved rest) → exec i s = .fault .rasterOutsideOut

/-- Unquantisation (42_bc7 R189): a byte whose top `p` bits are the value; for `p = 8` the value itself; all ones for the
largest value. -/
def Obligations.UnquantisationReplicatesTopBits : Prop :=
  ∀ p, p < 9 → 5 ≤ p → ∀ v, v < 2 ^ p →
    unquantise p v < 256 ∧ unquantise p v / 2 ^ (8 - p) = v ∧ (p = 8 → unquantise p v = v) ∧
    (v + 1 = 2 ^ p → unquantise p v = 255)

/-- The laws of BC7 interpolation (42_bc7 R194): between the endpoints, exact at weights 0 and 64, constant when the
endpoints are equal. -/
def Obligations.Bc7InterpolationLaws : Prop :=
  ∀ A B w, A < 256 → B < 256 → w ≤ 64 →
    min A B ≤ interpolate A B w ∧ interpolate A B w ≤ max A B ∧
    interpolate A B 0 = A ∧ interpolate A B 64 = B ∧ interpolate A A w = A

/-- The constant tables are consistent (43_bc7_tables R230, R232 to R234): the weights start at 0, end at 64 and rise
strictly; pixel 0 is in subset 0, no subset is empty, and each anchor lies in the subset it anchors, so the anchors of a
shape are distinct. -/
def Obligations.Bc7TablesAreConsistent : Prop :=
  (∀ bits, bits < 5 → 2 ≤ bits →
    (weightTable bits).length = 2 ^ bits ∧ weight bits 0 = 0 ∧ weight bits (2 ^ bits - 1) = 64 ∧
    (weightTable bits).Pairwise (· < ·)) ∧
  (∀ shape, shape < 64 →
    (∀ i, i < 16 → partitionOf 2 shape i < 2) ∧
    ((anchors 2 shape).map (partitionOf 2 shape)) = [0, 1] ∧ ∀ a ∈ anchors 2 shape, a < 16) ∧
  (∀ shape, shape < 64 →
    (∀ i, i < 16 → partitionOf 3 shape i < 3) ∧
    ((anchors 3 shape).map (partitionOf 3 shape)) = [0, 1, 2] ∧ ∀ a ∈ anchors 3 shape, a < 16)

/-- The sRGB table is the transfer formula over the reals, rounded to nearest (43_bc7_tables R235). -/
def Obligations.SrgbTableIsTheFormula : Prop :=
  (∀ c : Byte,
    ((srgbOf c).toNat : ℤ) =
      ⌊(if (c.toNat : ℝ) / 255 ≤ 0.04045 then (c.toNat : ℝ) / 255 / 12.92
        else (((c.toNat : ℝ) / 255 + 0.055) / 1.055) ^ (2.4 : ℝ)) * 255 + 0.5⌋) ∧
  (∀ c d : Byte, c.toNat ≤ d.toNat → (srgbOf c).toNat ≤ (srgbOf d).toNat)

/-! ## The DECODE command -/

/-- CTRL (10_state R23, R36): with START set and the core not BUSY the write issues DECODE; while BUSY, or with START
clear, it does nothing; CTRL reads 0. That it reads 0 while BUSY too is the model's reading of R23 beside 70_reset R315 (log
entry 4). -/
def Obligations.ControlRegister : Prop :=
  ∀ (v : Word) (rest : List Turn) (s : State),
    (s.turns = .access (.regWrite .word 0 v) :: rest →
      (v.getLsbD 0 = true → s.status.busy = false → step s = exec (.decode v) { s with turns := rest }) ∧
      (v.getLsbD 0 = true → s.status.busy = true → step s = .next { s with turns := rest }) ∧
      (v.getLsbD 0 = false → step s = .next { s with turns := rest })) ∧
    (s.turns = .access (.regRead .word 0) :: rest → step s = .next { s with turns := rest, busData := 0 })

/-- The start of a DECODE (44_raster R252), seen when the outside world leaves the ENGINE only some steps: one step sets
BUSY, clears every result and header register, sets phase PARSE, and leaves all else. -/
def Obligations.StartClearsTheResults : Prop :=
  ∀ (data : Word) (n : Nat) (rest : List Turn) (s : State),
    data.getLsbD 0 = true → s.status.busy = false → s.turns = .ticks n :: rest →
      exec (.decode data) s = .next { s with
        status := { busy := true, done := false, rasterValid := false, ptValid := false, result := .none }
        outWidth := 0
        outHeight := 0
        outFormat := 0
        ptOffset := 0
        ptLength := 0
        errInfo := 0
        errBlock := 0
        sliceOffset := 0
        sliceSize := 0
        hdr := ⟨0, 0, 0, 0, 0, 0, 0, 0, 0, 0, 0, 0, 0, 0, 0, 0, 0, 0, 0, 0, 0, 0⟩
        phase := .parse }

/-- Every DECODE completes, from every state, with BUSY clear, DONE set and phase IDLE (70_reset R319, 10_state R24), and
with exactly one result, the first check of 60_exceptions R287 that holds; ERR_INFO and ERR_BLOCK are those of R280. -/
def Obligations.DecodeResultIsTheFirstCheck : Prop :=
  ∀ (data : Word) (s : State), Commanded data s →
    ∃ t, exec (.decode data) s = .next t ∧ t.status.busy = false ∧ t.status.done = true ∧ t.phase = .idle ∧
      (t.status.result, t.errInfo, t.errBlock) = Rule.verdict s ∧
      (t.status.rasterValid = true ↔ t.status.result = .ok) ∧
      (t.status.ptValid = true ↔ t.status.result = .passThrough)

/-- What a DECODE leaves alone (20_memory R72, 10_state R28): IN, IN_LEN, the request registers, the parameters, the
reset epoch, the outside world's turns and the bus; and in OUT every byte at or above `4·W·H` of the level it decodes, or
every byte when it ends before the first block (44_raster R254, R263). -/
def Obligations.DecodeFrame : Prop :=
  ∀ (data : Word) (s t : State), Commanded data s → exec (.decode data) s = .next t →
    t.cfg = s.cfg ∧ t.inMem = s.inMem ∧ t.inLen = s.inLen ∧ t.reqSlice = s.reqSlice ∧ t.reqWidth = s.reqWidth ∧
    t.reqHeight = s.reqHeight ∧ t.reqFlags = s.reqFlags ∧ t.epoch = s.epoch ∧ t.turns = s.turns ∧
    t.busData = s.busData ∧
    (t.status.result ≠ .ok → t.errInfo ≠ 0x0883 → t.outMem = s.outMem) ∧
    (∀ L, Rule.level s = some L → ∀ a, 4 * Rule.width s L * Rule.height s L ≤ a →
      t.outMem.read a = s.outMem.read a)

/-- The header mirrors (40_container R127, R37): when the header parses whole every HDR register holds its field, and when
PARSE fails every one is 0. -/
def Obligations.HeaderMirrors : Prop :=
  ∀ (data : Word) (s : State), Commanded data s →
    ∃ t, exec (.decode data) s = .next t ∧
      (¬ Rule.HeaderWhole s → t.hdr = HeaderRegs.zero) ∧
      (Rule.HeaderWhole s → t.hdr =
        { magic := inWord s 0
          width := inWord s 16
          height := inWord s 12
          pitch := inWord s 20
          mipCount := inWord s 28
          pfFlags := inWord s 80
          fourCC := inWord s 84
          rgbBitCount := inWord s 88
          rMask := inWord s 92
          gMask := inWord s 96
          bMask := inWord s 100
          aMask := inWord s 104
          caps := inWord s 108
          caps2 := inWord s 112
          dxgi := if Rule.dx10 s then inWord s 128 else 0
          resDim := if Rule.dx10 s then inWord s 132 else 0
          miscFlag := if Rule.dx10 s then inWord s 136 else 0
          arraySize := if Rule.dx10 s then inWord s 140 else 0
          miscFlags2 := if Rule.dx10 s then inWord s 144 else 0
          info := BitVec.ofNat 32
            (1 + (if Rule.dx10 s then 2 else 0) + (if Rule.cubemap s then 4 else 0))
          mipsEff := BitVec.ofNat 32 (Rule.mips s)
          length := BitVec.ofNat 32 (Rule.headerLength s) })

/-- OUT_FORMAT (40_container R137, R136, 10_state R34): the code of the resolved format and the SRGB bit whatever ending
follows, and 0 when the DECODE ends before the resolver. The code numbers are those of 30_encoding R90. -/
def Obligations.FormatRegister : Prop :=
  ∀ (data : Word) (s : State), Commanded data s →
    ∃ t, exec (.decode data) s = .next t ∧
      (¬ Rule.HeaderWhole s → t.outFormat = 0) ∧
      (Rule.HeaderWhole s → t.outFormat =
        BitVec.ofNat 32
          ((match Rule.format s with
            | .none => 0
            | .dxt1 => 1
            | .dxt3 => 2
            | .dxt5 => 3
            | .bc7 => 4
            | .uncompressed => 5
            | .unsupported => 6
            | .passThrough => 7) + if Rule.srgb s then 8 else 0))

/-- Pass-through (40_container R136, 44_raster R260): the blob is IN from the header length to the end of the stream; the
raster dimensions and slice registers are 0, and OUT is not written. -/
def Obligations.PassThroughCompletes : Prop :=
  ∀ (data : Word) (s : State), Commanded data s → Rule.HeaderWhole s → Rule.format s = .passThrough →
    ∃ t, exec (.decode data) s = .next t ∧
      t.status = { busy := false, done := true, rasterValid := false, ptValid := true, result := .passThrough } ∧
      t.phase = .idle ∧ t.outFormat = 7 ∧ t.ptOffset.toNat = Rule.headerLength s ∧
      t.ptLength.toNat = s.inLen.toNat - Rule.headerLength s ∧ Rule.headerLength s ≤ s.inLen.toNat ∧
      t.outWidth = 0 ∧ t.outHeight = 0 ∧ t.sliceOffset = 0 ∧ t.sliceSize = 0 ∧ t.errInfo = 0 ∧ t.errBlock = 0 ∧
      t.outMem = s.outMem

/-- The slice registers and dimensions (40_container R143, R145, 10_state R33, R35): SLICE_OFFSET and SLICE_SIZE are the
located slice's position and size when it lies in the stream; after ERR_IO, whose registers are written before the check,
each is that position or size where it fits 32 bits (where it does not it is free, log entry 7); both are 0 when the DECODE
ends before a match; OUT_WIDTH and
OUT_HEIGHT are the level's after OK and 0 after every other ending; PT_OFFSET and PT_LENGTH are 0 unless it passes through. -/
def Obligations.SliceAndSizeRegisters : Prop :=
  ∀ (data : Word) (s t : State), Commanded data s → exec (.decode data) s = .next t →
    (t.status.result = .ok ∨ t.status.result = .errCapacity ∨ t.errInfo = 0x0883 →
      ∃ L, Rule.level s = some L ∧ t.sliceOffset.toNat = Rule.slicePos s L ∧ t.sliceSize.toNat = Rule.size s L ∧
        Rule.slicePos s L + Rule.size s L ≤ s.inLen.toNat ∧
        (t.status.result = .ok →
          t.outWidth.toNat = Rule.width s L ∧ t.outHeight.toNat = Rule.height s L)) ∧
    (t.status.result = .errIo →
      ∃ L, Rule.level s = some L ∧ s.inLen.toNat < Rule.slicePos s L + Rule.size s L ∧
        (Rule.slicePos s L < 2 ^ 32 → t.sliceOffset.toNat = Rule.slicePos s L) ∧
        (Rule.size s L < 2 ^ 32 → t.sliceSize.toNat = Rule.size s L)) ∧
    (t.status.result = .errNotFound ∨ t.status.result = .errUnsupported ∨ t.status.result = .passThrough ∨
        ¬ Rule.HeaderWhole s →
      t.sliceOffset = 0 ∧ t.sliceSize = 0) ∧
    (t.status.result ≠ .ok → t.outWidth = 0 ∧ t.outHeight = 0) ∧
    (t.status.result ≠ .passThrough → t.ptOffset = 0 ∧ t.ptLength = 0)

/-- The walk of the chain is the closed form (40_container R147, R142, R144): the matched level is level 0 of the requested
face when the request is unset, else the least level of the requested size, and its slice starts behind the header, the
faces before it with their gaps, and the levels before it. -/
def Obligations.WalkIsTheClosedForm : Prop :=
  ∀ s : State, 0 < s.parse.mips →
    let size := fun L => (max 1 (s.parse.baseW / 2 ^ L) + 3) / 4 * ((max 1 (s.parse.baseH / 2 ^ L) + 3) / 4) * s.loc.bs
    let below := fun n => ((List.range n).map size).sum
    let found : Option Nat :=
      if s.reqSlice.toNat < (if s.parse.cubemap then 6 else 1) then
        if s.reqWidth.toInt ≤ 0 ∨ s.reqHeight.toInt ≤ 0 then some 0
        else (List.range s.parse.mips).find? fun L =>
          decide (s.reqWidth.toInt = (max 1 (s.parse.baseW / 2 ^ L) : Nat)) &&
            decide (s.reqHeight.toInt = (max 1 (s.parse.baseH / 2 ^ L) : Nat))
      else none
    walkChain s = found.map fun L =>
      { s.loc with
        face := s.reqSlice.toNat
        level := L
        pos := s.parse.hl + s.reqSlice.toNat * (below s.parse.mips + s.cfg.faceGap) + below L
        w := max 1 (s.parse.baseW / 2 ^ L)
        h := max 1 (s.parse.baseH / 2 ^ L)
        size := size L }

/-- The raster (44_raster R254 to R258): after OK every pixel of the raster is the one its block decodes to, in row-major
order of blocks and of pixels inside a block, with alpha 255 when IGNORE_ALPHA is set. -/
def Obligations.RasterIsTheDecodedBlocks : Prop :=
  ∀ (data : Word) (s t : State), Commanded data s → exec (.decode data) s = .next t → t.status.result = .ok →
    ∃ L, Rule.level s = some L ∧
      ∀ X Y, X < Rule.width s L → Y < Rule.height s L →
        t.outMem.read (4 * (Y * Rule.width s L + X)) = some (Rule.rasterPixel s L X Y).r ∧
        t.outMem.read (4 * (Y * Rule.width s L + X) + 1) = some (Rule.rasterPixel s L X Y).g ∧
        t.outMem.read (4 * (Y * Rule.width s L + X) + 2) = some (Rule.rasterPixel s L X Y).b ∧
        t.outMem.read (4 * (Y * Rule.width s L + X) + 3) =
          some (if s.reqFlags.getLsbD 0 then 255 else (Rule.rasterPixel s L X Y).a)

/-- IGNORE_ALPHA (44_raster R257): two DECODEs that differ in the flag alone end with the same result and registers and the
same red, green and blue bytes; with the flag every alpha byte is 255. -/
def Obligations.IgnoreAlphaChangesAlphaOnly : Prop :=
  ∀ (data : Word) (s t u : State), Commanded data s →
    exec (.decode data) { s with reqFlags := 0 } = .next t → exec (.decode data) { s with reqFlags := 1 } = .next u →
      u.status = t.status ∧ u.errInfo = t.errInfo ∧ u.errBlock = t.errBlock ∧ u.outWidth = t.outWidth ∧
      u.outHeight = t.outHeight ∧ u.outFormat = t.outFormat ∧ u.sliceOffset = t.sliceOffset ∧
      u.sliceSize = t.sliceSize ∧ u.ptOffset = t.ptOffset ∧ u.ptLength = t.ptLength ∧ u.hdr = t.hdr ∧
      (t.status.result = .ok → ∀ p, p < t.outWidth.toNat * t.outHeight.toNat →
        u.outMem.read (4 * p) = t.outMem.read (4 * p) ∧ u.outMem.read (4 * p + 1) = t.outMem.read (4 * p + 1) ∧
        u.outMem.read (4 * p + 2) = t.outMem.read (4 * p + 2) ∧ u.outMem.read (4 * p + 3) = some 255)

/-- The result of a DECODE depends only on its operands and the configuration (44_raster R250, R252, 10_state R45): two
states with the same parameters, IN_LEN, request and stream bytes, whatever else they hold, give the same registers and the
same raster. That holds of a slice register whose exact value does not fit 32 bits too: it is free, and a function of that
value alone (log entry 7). -/
def Obligations.DecodeDependsOnlyOnOperands : Prop :=
  ∀ (data : Word) (s s' t t' : State), Commanded data s → Commanded data s' →
    s'.cfg = s.cfg → s'.inLen = s.inLen → s'.reqSlice = s.reqSlice → s'.reqWidth = s.reqWidth →
    s'.reqHeight = s.reqHeight → s'.reqFlags = s.reqFlags → (∀ k, k < s.inLen.toNat → inByte s' k = inByte s k) →
    exec (.decode data) s = .next t → exec (.decode data) s' = .next t' →
      t'.status = t.status ∧ t'.errInfo = t.errInfo ∧ t'.errBlock = t.errBlock ∧ t'.outWidth = t.outWidth ∧
      t'.outHeight = t.outHeight ∧ t'.outFormat = t.outFormat ∧ t'.ptOffset = t.ptOffset ∧
      t'.ptLength = t.ptLength ∧ t'.hdr = t.hdr ∧
      t'.sliceOffset = t.sliceOffset ∧ t'.sliceSize = t.sliceSize ∧
      (t.status.result = .ok → ∀ a, a < 4 * t.outWidth.toNat * t.outHeight.toNat →
        t'.outMem.read a = t.outMem.read a)

/-- Taking a failure (60_exceptions R290, R280, R288): ERR_INFO for a structural failure, RESULT, the validity bits, BUSY,
DONE and the phase, in one step, and no other register, no byte of IN and no byte of OUT. -/
def Obligations.TakingAFailure : Prop :=
  ∀ (f : Failure) (s : State),
    (failureResult f = .errStructural → FailedWith .errStructural (failureInfo f) s.errBlock s (raiseFail f s)) ∧
    (failureResult f ≠ .errStructural → FailedWith (failureResult f) s.errInfo s.errBlock s (raiseFail f s)) ∧
    (failureResult f = .errStructural ∨ failureResult f = .errUnsupported ∨ failureResult f = .errNotFound ∨
      failureResult f = .errIo ∨ failureResult f = .errCapacity) ∧
    failureInfo .badMagic = 0x00F1 ∧ failureInfo .truncHeader = 0x00F2 ∧ failureInfo .bc7ReservedMode = 0x0883 ∧
    ∀ mode pos, mode < 8 → pos ≤ 128 → (failureInfo (.bc7BitBudget mode pos)).toNat = pos * 256 + mode * 16 + 4

/-- FINISH (44_raster R258): in one step of the ENGINE the raster's dimensions, OK, RASTER_VALID, BUSY, DONE and the phase
are written, and no byte of OUT or IN. -/
def Obligations.FinishWritesTheSuccess : Prop :=
  ∀ s : State, s.turns = [] → s.phase = .finish →
    ∃ t, step s = .next t ∧
      t = { s with
        outWidth := BitVec.ofNat 32 s.ras.W
        outHeight := BitVec.ofNat 32 s.ras.H
        status := { busy := false, done := true, rasterValid := true, ptValid := s.status.ptValid, result := .ok }
        phase := .idle
        parse := t.parse
        loc := t.loc
        ras := t.ras
        bc7 := t.bc7
        dxt := t.dxt
        draws := t.draws }

/-- A DECODE as one atomic step is the ENGINE run phase by phase and block by block from its start (20_memory R70,
70_reset R315). The size of a step is the model's choice (log entries 9 and 18). -/
def Obligations.AtomicDecodeIsTheStepwiseOne : Prop :=
  ∀ (data : Word) (s : State), data.getLsbD 0 = true → s.status.busy = false → s.turns = [] →
    ∃ n t, exec (.decode data) s = .next t ∧ Sys2Proof.core.run n (startDecode s) = .next t

/-- The phase order (44_raster R251): an ENGINE step goes from a phase to itself (another block) or to the next, or ends
the DECODE; only RESOLVE, besides a failure and FINISH, ends it. That an early exit leaves phase IDLE at once is the model's
reading of R251 beside R290 and R260 (log entry 16). -/
def Obligations.PhasesFollowTheirOrder : Prop :=
  ∀ s t : State, s.turns = [] → step s = .next t →
    (s.phase = .idle → t.phase = .idle) ∧
    (s.phase = .parse → t.phase = .resolve ∨ t.phase = .idle ∧ t.status.result = .errStructural) ∧
    (s.phase = .resolve → t.phase = .locate ∨
      t.phase = .idle ∧ (t.status.result = .passThrough ∨ t.status.result = .errUnsupported)) ∧
    (s.phase = .locate → t.phase = .alloc ∨
      t.phase = .idle ∧ (t.status.result = .errNotFound ∨ t.status.result = .errIo)) ∧
    (s.phase = .alloc → t.phase = .decode ∨ t.phase = .idle ∧ t.status.result = .errCapacity) ∧
    (s.phase = .decode → t.phase = .decode ∨ t.phase = .alpha ∨
      t.phase = .idle ∧ t.status.result = .errStructural) ∧
    (s.phase = .alpha → t.phase = .finish) ∧
    (s.phase = .finish → t.phase = .idle ∧ t.status.result = .ok)

/-! ## The HOST's side -/

/-- The STATUS word (10_state R24, R25, R47): each bit is its field, RESULT is the number R25 gives, bits 7:4 and 31:12 are
0, and `done` is bit 1; in a
state of the invariant BUSY and DONE are never both 1, and each validity bit implies its result. -/
def Obligations.StatusWordFields : Prop :=
  (∀ t : Status, (statusWord t).getLsbD 0 = t.busy ∧ (statusWord t).getLsbD 1 = t.done ∧
    (statusWord t).getLsbD 2 = t.rasterValid ∧ (statusWord t).getLsbD 3 = t.ptValid ∧
    (statusWord t).extractLsb' 4 4 = 0 ∧
    (statusWord t).extractLsb' 8 4 =
      (match t.result with
        | .none => 0
        | .ok => 1
        | .passThrough => 2
        | .errStructural => 3
        | .errUnsupported => 4
        | .errNotFound => 5
        | .errIo => 6
        | .errCapacity => 7) ∧
    (statusWord t).extractLsb' 12 20 = 0) ∧
  (∀ s : State, Inv s → doneSignal s = (statusWord s.status).getLsbD 1 ∧
    ¬ (s.status.busy = true ∧ s.status.done = true) ∧
    (s.status.rasterValid = true → s.status.result = .ok) ∧ (s.status.ptValid = true → s.status.result = .passThrough))

/-- The register map (10_state R22, R38): a 32-bit read at each listed offset returns the register it names, when the core
is not BUSY, and changes nothing but the bus data. -/
def Obligations.RegisterMapReads : Prop :=
  ∀ (s : State) (off : Nat) (v : Word) (rest : List Turn), s.status.busy = false →
    s.turns = .access (.regRead .word off) :: rest →
    (off, v) ∈ [(0x00, 0), (0x04, statusWord s.status), (0x08, s.inLen), (0x0C, s.reqSlice), (0x10, s.reqWidth),
      (0x14, s.reqHeight), (0x18, s.reqFlags), (0x1C, s.outWidth), (0x20, s.outHeight), (0x24, s.outFormat),
      (0x28, s.ptOffset), (0x2C, s.ptLength), (0x30, s.errInfo), (0x34, s.errBlock),
      (0x38, BitVec.ofNat 32 s.cfg.inCapacity), (0x3C, BitVec.ofNat 32 s.cfg.outCapacity), (0x40, s.hdr.magic),
      (0x44, s.hdr.width), (0x48, s.hdr.height), (0x4C, s.hdr.pitch), (0x50, s.hdr.mipCount), (0x54, s.hdr.pfFlags),
      (0x58, s.hdr.fourCC), (0x5C, s.hdr.rgbBitCount), (0x60, s.hdr.rMask), (0x64, s.hdr.gMask), (0x68, s.hdr.bMask),
      (0x6C, s.hdr.aMask), (0x70, s.hdr.caps), (0x74, s.hdr.caps2), (0x78, s.hdr.dxgi), (0x7C, s.hdr.resDim),
      (0x80, s.hdr.miscFlag), (0x84, s.hdr.arraySize), (0x88, s.hdr.miscFlags2), (0x8C, s.hdr.info),
      (0x90, s.hdr.mipsEff), (0x94, s.hdr.length), (0x98, s.sliceOffset), (0x9C, s.sliceSize)] →
    step s = .next { s with turns := rest, busData := v }

/-- What the register block turns away (10_state R21): an access that is not 32 bits wide and aligned, and one of an
unlisted offset, reads 0 and writes nothing; a write to a read-only register writes nothing. An offset of 256 or more counts
as unlisted, which is the model's choice (log entry 17). -/
def Obligations.RegisterBlockTurnsAway : Prop :=
  ∀ (s : State) (w : Width) (off : Nat) (v : Word) (rest : List Turn),
    ((w ≠ .word ∨ off % 4 ≠ 0 ∨ 0xA0 ≤ off) → s.turns = .access (.regRead w off) :: rest →
      step s = .next { s with turns := rest, busData := 0 }) ∧
    ((w ≠ .word ∨ off % 4 ≠ 0 ∨ off = 0x04 ∨ 0x1C ≤ off) → s.turns = .access (.regWrite w off v) :: rest →
      step s = .next { s with turns := rest })

/-- The request registers (10_state R28 to R32): a write while not BUSY stores the value, IN_LEN at most IN_CAPACITY and
REQ_FLAGS its bit 0 only. -/
def Obligations.RequestRegisterWrites : Prop :=
  ∀ (s : State) (off : Nat) (v : Word) (rest : List Turn), s.status.busy = false →
    s.turns = .access (.regWrite .word off v) :: rest →
      (off = 0x08 → ∃ t, step s = .next t ∧ t.inLen.toNat = min v.toNat s.cfg.inCapacity ∧
        t = { s with turns := rest, inLen := t.inLen }) ∧
      (off = 0x0C → step s = .next { s with turns := rest, reqSlice := v }) ∧
      (off = 0x10 → step s = .next { s with turns := rest, reqWidth := v }) ∧
      (off = 0x14 → step s = .next { s with turns := rest, reqHeight := v }) ∧
      (off = 0x18 → ∃ t, step s = .next t ∧ t.reqFlags.toNat = v.toNat % 2 ∧
        t = { s with turns := rest, reqFlags := t.reqFlags })

/-- The write lock (10_state R36): while BUSY no step changes IN, IN_LEN or a request register, whatever the HOST writes;
only the reset input does. -/
def Obligations.WriteLockWhileBusy : Prop :=
  (∀ (s : State) (a : HostAccess) (rest : List Turn), s.status.busy = true → s.turns = .access a :: rest →
    (∃ w off v, a = .regWrite w off v ∨ a = .inWrite w off v) → step s = .next { s with turns := rest }) ∧
  (∀ s t : State, s.status.busy = true → s.turns.head? ≠ some .rst → step s = .next t →
    t.inMem = s.inMem ∧ t.inLen = s.inLen ∧ t.reqSlice = s.reqSlice ∧ t.reqWidth = s.reqWidth ∧
    t.reqHeight = s.reqHeight ∧ t.reqFlags = s.reqFlags)

/-- Writing IN (20_memory R61): an aligned write below IN_CAPACITY while not BUSY stores the value's bytes, least
significant first, and no other byte changes; any other write changes nothing. -/
def Obligations.InputWriteIsLittleEndian : Prop :=
  ∀ (s : State) (w : Width) (addr : Nat) (v : Word) (rest : List Turn),
    s.turns = .access (.inWrite w addr v) :: rest →
      (s.status.busy = false → addr % widthBytes w = 0 → addr + widthBytes w ≤ s.cfg.inCapacity →
        ∃ t, step s = .next t ∧ t = { s with turns := rest, inMem := t.inMem } ∧
          (∀ j, j < widthBytes w → t.inMem.read (addr + j) = some (v.extractLsb' (8 * j) 8)) ∧
          (∀ k, k < addr ∨ addr + widthBytes w ≤ k → t.inMem.read k = s.inMem.read k)) ∧
      ((s.status.busy = true ∨ addr % widthBytes w ≠ 0 ∨ s.cfg.inCapacity < addr + widthBytes w) →
        step s = .next { s with turns := rest })

/-- Reading IN (20_memory R61): an aligned read below IN_CAPACITY returns the bytes, least significant first, BUSY or not;
any other returns 0; neither changes anything but the bus data. That a narrow read has zeros above its bytes is the model's
choice (log entry 17). -/
def Obligations.InputReadIsLittleEndian : Prop :=
  ∀ (s : State) (w : Width) (addr : Nat) (rest : List Turn), s.turns = .access (.inRead w addr) :: rest →
    (addr % widthBytes w = 0 → addr + widthBytes w ≤ s.cfg.inCapacity →
      ∃ v : Word, step s = .next { s with turns := rest, busData := v } ∧
        (∀ j, j < widthBytes w → v.extractLsb' (8 * j) 8 = inByte s (addr + j)) ∧
        v.toNat < 256 ^ widthBytes w) ∧
    ((addr % widthBytes w ≠ 0 ∨ s.cfg.inCapacity < addr + widthBytes w) →
      step s = .next { s with turns := rest, busData := 0 })

/-- Host access to OUT (20_memory R63): with RASTER_VALID and not BUSY an aligned read below `4·W·H` returns the raster
bytes, least significant first; a misaligned one or one that reaches OUT_CAPACITY returns 0; a write changes nothing; no
read changes OUT, and what an unspecified read returns is left open. That a misaligned read is 0 while BUSY too is the model's
reading (log entry 8). -/
def Obligations.OutputAccess : Prop :=
  ∀ (s : State) (w : Width) (addr : Nat) (rest : List Turn),
    (∀ v, s.turns = .access (.outWrite w addr v) :: rest → step s = .next { s with turns := rest }) ∧
    (s.turns = .access (.outRead w addr) :: rest →
      (∃ t, step s = .next t ∧ t = { s with turns := rest, busData := t.busData, draws := t.draws }) ∧
      ((addr % widthBytes w ≠ 0 ∨ s.cfg.outCapacity < addr + widthBytes w) →
        step s = .next { s with turns := rest, busData := 0 }) ∧
      (addr % widthBytes w = 0 → addr + widthBytes w ≤ s.cfg.outCapacity → s.status.busy = false →
        s.status.rasterValid = true → addr + widthBytes w ≤ 4 * s.outWidth.toNat * s.outHeight.toNat →
        ∃ t, step s = .next t ∧ ∀ j b, j < widthBytes w → s.outMem.read (addr + j) = some b →
          t.busData.extractLsb' (8 * j) 8 = b))

/-- Reads while BUSY (70_reset R315): in a state of the invariant STATUS reads BUSY = 1 and every other field 0, and IN_LEN
and the request registers read their values. -/
def Obligations.StatusAndRequestsReadWhileBusy : Prop :=
  ∀ (s : State) (off : Nat) (v : Word) (rest : List Turn), Inv s → s.status.busy = true →
    s.turns = .access (.regRead .word off) :: rest →
    (off, v) ∈ [(0x04, 1), (0x08, s.inLen), (0x0C, s.reqSlice), (0x10, s.reqWidth), (0x14, s.reqHeight),
      (0x18, s.reqFlags)] →
    step s = .next { s with turns := rest, busData := v }

/-- Results stay (70_reset R316, 60_exceptions R295): with the core idle, a step that is neither the reset input nor a CTRL
write with START leaves STATUS, every result, error, slice and header register, OUT and the internal registers as they are;
with no turn of the outside world left nothing changes at all. -/
def Obligations.IdleCoreKeepsItsResults : Prop :=
  (∀ s : State, s.phase = .idle → s.turns = [] → step s = .next s) ∧
  (∀ s t : State, s.phase = .idle → step s = .next t → s.turns.head? ≠ some .rst →
    (∀ v : Word, s.turns.head? = some (.access (.regWrite .word 0 v)) → v.getLsbD 0 = false) →
      t.status = s.status ∧ t.outWidth = s.outWidth ∧ t.outHeight = s.outHeight ∧ t.outFormat = s.outFormat ∧
      t.ptOffset = s.ptOffset ∧ t.ptLength = s.ptLength ∧ t.errInfo = s.errInfo ∧ t.errBlock = s.errBlock ∧
      t.hdr = s.hdr ∧ t.sliceOffset = s.sliceOffset ∧ t.sliceSize = s.sliceSize ∧ t.outMem = s.outMem ∧
      t.phase = .idle ∧ t.parse = s.parse ∧ t.loc = s.loc ∧ t.ras = s.ras ∧ t.bc7 = s.bc7 ∧ t.dxt = s.dxt)

/-- The reset input (10_state R46, 70_reset R310, R311): it may fall at any time, and then every register of the register
block is 0, the phase is IDLE, a DECODE in progress is gone without a result, and no byte of IN or OUT is known any more.
That reset is one step, and that the parameters and the turns stay, is the model's choice (log entries 6, 10, 11). -/
def Obligations.ResetClearsTheCore : Prop :=
  ∀ (s : State) (rest : List Turn), s.turns = .rst :: rest →
    ∃ t, step s = .next t ∧
      t.status = { busy := false, done := false, rasterValid := false, ptValid := false, result := .none } ∧
      t.inLen = 0 ∧ t.reqSlice = 0 ∧ t.reqWidth = 0 ∧ t.reqHeight = 0 ∧ t.reqFlags = 0 ∧ t.outWidth = 0 ∧
      t.outHeight = 0 ∧ t.outFormat = 0 ∧ t.ptOffset = 0 ∧ t.ptLength = 0 ∧ t.errInfo = 0 ∧ t.errBlock = 0 ∧
      t.hdr = ⟨0, 0, 0, 0, 0, 0, 0, 0, 0, 0, 0, 0, 0, 0, 0, 0, 0, 0, 0, 0, 0, 0⟩ ∧ t.sliceOffset = 0 ∧
      t.sliceSize = 0 ∧ t.phase = .idle ∧ (∀ a, t.inMem.read a = none) ∧ (∀ a, t.outMem.read a = none) ∧
      t.cfg = s.cfg ∧ t.turns = rest

/-- A DECODE issued straight after reset ends with ERR_STRUCTURAL, TRUNC_HEADER, whatever IN holds (70_reset R312), right
after power-on and after any later reset. -/
def Obligations.DecodeAfterResetIsTruncated : Prop :=
  (∀ (data : Word), data.getLsbD 0 = true →
    ∃ t, exec (.decode data) State.reset = .next t ∧ FailedWith .errStructural 0x00F2 0 State.reset t) ∧
  (∀ (data : Word) (s : State), data.getLsbD 0 = true → actsDuring s = false →
    ∃ t, exec (.decode data) (applyReset s) = .next t ∧ FailedWith .errStructural 0x00F2 0 (applyReset s) t)

/-! ## The machine -/

/-- A step runs the decoded instruction: a CTRL write that decodes to `i` makes the step exec `i` on the state behind that
turn; in phase DECODE the bytes of the current block that decode to `i` make the ENGINE's step exec `i`, on the state itself
when no turn of the outside world is left and behind one tick when the outside world leaves the ENGINE the step (the turns are
the model's own, log entry 11). -/
def Obligations.StepRunsTheDecodedInstruction : Prop :=
  (∀ (s : State) (v : Word) (rest : List Turn) (i : Instr), s.turns = .access (.regWrite .word 0 v) :: rest →
    decode (.command v) = .ok i → step s = exec i { s with turns := rest }) ∧
  (∀ (s : State) (i : Instr), s.phase = .decode →
    s.sliceOffset.toNat + (s.ras.blkY * s.ras.BW + s.ras.blkX) * s.loc.bs + s.loc.bs ≤ s.inLen.toNat →
    decode (.block s.loc.fmt
      (inBytes s (s.sliceOffset.toNat + (s.ras.blkY * s.ras.BW + s.ras.blkX) * s.loc.bs) s.loc.bs)) = .ok i →
    (s.turns = [] → step s = exec i s) ∧
    (∀ n rest, s.turns = .ticks (n + 1) :: rest → step s = exec i { s with turns := .ticks n :: rest }))

/-- A word of the opcode table placed in any state is the instruction the very next step runs, and the state it runs on is
named: for a command the state itself, for a block the state with the block placed, its one step of the ENGINE taken. It is
about the model's own interface (log entries 12 and 13). -/
def Obligations.PlacedWordIsRunNext : Prop :=
  ∀ (s : State) (nbits w : Nat) (i : Instr), decodeTableWord nbits w = some i →
    (∀ v, tableWord nbits w = some (.command v) → step (s.withFetchWord nbits w) = exec i s) ∧
    (∀ fmt blk, tableWord nbits w = some (.block fmt blk) →
      step (s.withFetchWord nbits w) = exec i { placeBlock fmt blk s with turns := .ticks 0 :: s.turns })

/-- The invariant holds after reset (10_state R46). -/
def Obligations.InvariantHoldsAtReset : Prop := Inv State.reset

/-- Every step keeps the invariant, from every state that meets it: phase and BUSY agree (10_state R39), the implications of
STATUS (R24), the raster and the stream stay inside their memories (20_memory R60, R62), the memories keep their canonical
form, and each phase finds what it relies on. -/
def Obligations.EveryStepKeepsTheInvariant : Prop :=
  ∀ s t : State, Inv s → step s = .next t → Inv t

/-- No step of a state that meets the invariant stops: every fault of the model is out of reach (44_raster R255, R253;
30_encoding R89; 70_reset R320). -/
def Obligations.NoStepStopsUnderTheInvariant : Prop :=
  ∀ s : State, Inv s → ∃ t, step s = .next t
end

