-- ==== Sys2Proof/Laws/Container.lean ====
section
/-! SUPPORT. What the phases PARSE, RESOLVE and LOCATE can do, each said once. -/

namespace Sys2Proof.Machine

/-- Outside its own phase a phase does nothing. -/
theorem parsePhase_of_ne {s : State} (h : s.phase ≠ .parse) : parsePhase s = s := if_neg h

theorem resolvePhase_of_ne {s : State} (h : s.phase ≠ .resolve) : resolvePhase s = s := if_neg h

theorem locatePhase_of_ne {s : State} (h : s.phase ≠ .locate) : locatePhase s = s := if_neg h

/-- Everything PARSE can do in its phase. -/
theorem parsePhase_cases {s : State} (h : s.phase = .parse) :
    (∃ f, parseFailure s = some f ∧ parsePhase s = raiseFail f s) ∨
    (parseFailure s = none ∧ parsePhase s =
      { s with
        parse := parsedRegs s
        hdr := mirroredHeader s
        loc := { s.loc with pos := headerLength (streamHasDx10 s) }
        phase := .resolve }) := by
  rw [parsePhase, if_pos h]
  cases hf : parseFailure s with
  | none => exact .inr ⟨rfl, rfl⟩
  | some f => exact .inl ⟨f, rfl, rfl⟩

/-- When PARSE does not fail: the stream holds the whole header. -/
theorem parseFailure_eq_none {s : State} :
    parseFailure s = none ↔
      128 ≤ streamLength s ∧ inWord s 0 = magicWord ∧ (streamHasDx10 s = true → 148 ≤ streamLength s) := by
  unfold parseFailure
  split
  · simp; omega
  · split
    · simp_all
    · split
      · simp; omega
      · split
        · rename_i h
          simp only [reduceCtorEq, false_iff]
          rintro ⟨-, -, h'⟩
          have := h' h.1
          omega
        · rename_i h1 h2 h3 h4
          refine ⟨fun _ => ⟨by omega, not_not.1 h2, fun hd => ?_⟩, fun _ => rfl⟩
          by_contra hn
          exact h4 ⟨hd, by omega⟩

/-- What the failures of PARSE are. -/
theorem parseFailure_eq_some {s : State} {f : Failure} (h : parseFailure s = some f) :
    f = .truncHeader ∨ f = .badMagic := by
  unfold parseFailure at h
  split at h
  · exact .inl (by injection h with h; exact h.symm)
  · split at h
    · exact .inr (by injection h with h; exact h.symm)
    · split at h
      · exact .inl (by injection h with h; exact h.symm)
      · split at h
        · exact .inl (by injection h with h; exact h.symm)
        · cases h

/-- Everything RESOLVE can do in its phase. -/
theorem resolvePhase_cases {s : State} (h : s.phase = .resolve) :
    let fmt := (resolveFormat s.cfg s.parse).1
    let srgb := (resolveFormat s.cfg s.parse).2
    let s1 := { s with loc := { s.loc with fmt := fmt, srgb := srgb, bs := blockBytesOf fmt s.loc.bs } }
    (fmt = .passThrough ∧ resolvePhase s = completePassThrough s1) ∨
    ((fmt = .unsupported ∨ fmt = .uncompressed) ∧
      resolvePhase s = raiseFail .unsupported { s1 with outFormat := outFormatWord fmt srgb }) ∨
    (fmt ≠ .passThrough ∧ fmt ≠ .unsupported ∧ fmt ≠ .uncompressed ∧
      resolvePhase s = { s1 with outFormat := outFormatWord fmt srgb, phase := .locate }) := by
  dsimp only
  rw [resolvePhase, if_pos h]
  cases hr : resolveFormat s.cfg s.parse with
  | mk fmt srgb => cases fmt <;> simp

/-- The format the resolver gives: never NONE, and SRGB with BC7 only. -/
theorem resolveFormat_ne_none (cfg : Params) (p : ParseRegs) : (resolveFormat cfg p).1 ≠ .none := by
  unfold resolveFormat resolveDxgi resolveFourCC
  repeat' split
  all_goals simp

/-- Everything FOUND can do: the slice registers are written first, whether it then fails or goes on. -/
theorem foundSlice_cases (r : LocateRegs) (s : State) :
    (streamLength s < r.pos + r.size ∧ foundSlice r s = raiseFail .io (writeSlice r s)) ∨
    (r.pos + r.size ≤ streamLength s ∧ foundSlice r s = { writeSlice r s with phase := .alloc }) := by
  unfold foundSlice
  split
  · exact .inl ⟨by omega, rfl⟩
  · exact .inr ⟨by omega, rfl⟩

/-- The slice registers after FOUND, on either path, are functions of the located position and size alone. -/
theorem foundSlice_registers (r : LocateRegs) (s : State) :
    (foundSlice r s).sliceOffset = sliceWord Config.unfitOffset r.pos ∧
    (foundSlice r s).sliceSize = sliceWord Config.unfitSize r.size := by
  obtain ⟨-, h⟩ | ⟨-, h⟩ := foundSlice_cases r s <;> rw [h] <;> exact ⟨rfl, rfl⟩

/-- Everything LOCATE can do in its phase. -/
theorem locatePhase_cases {s : State} (h : s.phase = .locate) :
    (walkChain s = none ∧ locatePhase s = raiseFail .notFound s) ∨
    (∃ r, walkChain s = some r ∧ locatePhase s = foundSlice r s) := by
  rw [locatePhase, if_pos h]
  cases hw : walkChain s with
  | none => exact .inl ⟨rfl, rfl⟩
  | some r => exact .inr ⟨r, rfl, rfl⟩

/-- A walk over levels either passes them all, adding their sizes, or stops at the first match. -/
theorem walkLevels_of_no_match {s : State} {f n L pos : Nat} (h : ∀ k, k < n → matchLevel s f (L + k) = false) :
    walkLevels s f n L pos = .error (pos + ((List.range n).map fun k => sizeOfLevel s (L + k)).sum) := by
  induction n generalizing L pos with
  | zero => simp [walkLevels]
  | succ n ih =>
    rw [walkLevels, if_neg (by have := h 0 (by omega); simpa using this),
      ih fun k hk => by have := h (k + 1) (by omega); rwa [show L + (k + 1) = L + 1 + k by omega] at this]
    rw [List.range_succ_eq_map, List.map_cons, List.map_map, List.sum_cons]
    simp only [Function.comp_def, Nat.add_assoc, Nat.succ_eq_add_one, Nat.add_comm 1, Nat.add_zero]

/-- What a found slice's registers are. -/
theorem walkLevels_ok {s : State} {f n L pos : Nat} {r : LocateRegs} (h : walkLevels s f n L pos = .ok r) :
    ∃ k p, k < n ∧ matchLevel s f (L + k) = true ∧ r = locatedAt s f (L + k) p := by
  induction n generalizing L pos with
  | zero => cases h
  | succ n ih =>
    rw [walkLevels] at h
    split at h
    · rename_i hm
      exact ⟨0, pos, by omega, hm, by injection h with h; exact h.symm⟩
    · obtain ⟨k, p, hk, hm, hr⟩ := ih h
      exact ⟨k + 1, p, by omega, by rwa [show L + (k + 1) = L + 1 + k by omega],
        by rwa [show L + (k + 1) = L + 1 + k by omega]⟩

/-- What the walk of the chain finds: a match, and the registers of its level. -/
theorem walkFaces_some {s : State} {n f pos : Nat} {r : LocateRegs} (h : walkFaces s n f pos = some r) :
    ∃ f' L p, matchLevel s f' L = true ∧ r = locatedAt s f' L p := by
  induction n generalizing f pos with
  | zero => cases h
  | succ n ih =>
    rw [walkFaces] at h
    split at h
    · rename_i hl
      cases h
      obtain ⟨k, p, -, hm, hr⟩ := walkLevels_ok hl
      exact ⟨f, 0 + k, p, hm, hr⟩
    · exact ih h

/-- A level is at least 1 pixel wide and high, and below 2^32 when its base is. -/
theorem levelDim_pos (base L : Nat) : 1 ≤ levelDim base L := Nat.le_max_left _ _

theorem levelDim_lt {base L : Nat} (h : base < 2 ^ 32) : levelDim base L < 2 ^ 32 := by
  have : base >>> L ≤ base := by rw [Nat.shiftRight_eq_div_pow]; exact Nat.div_le_self _ _
  unfold levelDim
  omega

end Sys2Proof.Machine
end

