-- ==== Sys2Proof/Laws/Memory.lean ====
section
/-! SUPPORT. The laws of the byte memories: a read sees the last write, a write leaves every other address alone, and every
operation keeps the canonical form and the address bound. -/

namespace Sys2Proof.Machine

@[simp] theorem Memory.read_nil (k : Nat) : Memory.read [] k = none := rfl

theorem Memory.read_cons (c : Host.Cell) (m : Memory) (k : Nat) :
    Memory.read (c :: m) k = if c.1 = k then some c.2 else Memory.read m k := rfl

@[simp] theorem Memory.read_write_same (m : Memory) (k : Nat) (v : Byte) : (m.write k v).read k = some v := by
  induction m with
  | nil => simp [Memory.write, Memory.read_cons]
  | cons c m ih =>
    unfold Memory.write
    split
    · simp [Memory.read_cons]
    · split
      · simp [Memory.read_cons]
      · rename_i h1 h2
        rw [Memory.read_cons, if_neg (fun h => h2 h.symm), ih]

theorem Memory.read_write_ne (m : Memory) {k j : Nat} (v : Byte) (h : j ≠ k) : (m.write k v).read j = m.read j := by
  induction m with
  | nil => simp [Memory.write, Memory.read_cons, h.symm]
  | cons c m ih =>
    unfold Memory.write
    split
    · rw [Memory.read_cons, if_neg h.symm]
    · split
      · rename_i h1 h2
        rw [Memory.read_cons, Memory.read_cons, if_neg h.symm, if_neg (by omega)]
      · rw [Memory.read_cons, Memory.read_cons, ih]

/-- A read after a write, whatever the two addresses. -/
theorem Memory.read_write (m : Memory) (k j : Nat) (v : Byte) :
    (m.write k v).read j = if j = k then some v else m.read j := by
  split
  · rename_i h; subst h; exact Memory.read_write_same m j v
  · rename_i h; exact Memory.read_write_ne m v h

/-- The addresses a write leaves are the written one and those listed before. -/
theorem Memory.mem_write {m : Memory} {k : Nat} {v : Byte} {c : Host.Cell} (h : c ∈ m.write k v) :
    c = (k, v) ∨ c ∈ m := by
  induction m with
  | nil => simpa [Memory.write] using h
  | cons d m ih =>
    unfold Memory.write at h
    split at h
    · simpa using h
    · split at h
      · rcases List.mem_cons.1 h with h | h
        · exact .inl h
        · exact .inr (List.mem_cons_of_mem _ h)
      · rcases List.mem_cons.1 h with h | h
        · exact .inr (h ▸ List.mem_cons_self)
        · exact (ih h).imp id (List.mem_cons_of_mem _)

/-- A write keeps the canonical form. -/
theorem Memory.wf_write {m : Memory} (h : m.wf) (k : Nat) (v : Byte) : (m.write k v).wf := by
  induction m with
  | nil => simp [Memory.write, Memory.wf]
  | cons c m ih =>
    obtain ⟨hc, hm⟩ := List.pairwise_cons.1 h
    unfold Memory.write
    split
    · rename_i hk
      refine List.pairwise_cons.2 ⟨fun d hd => ?_, h⟩
      rcases List.mem_cons.1 hd with rfl | hd
      · exact hk
      · exact Nat.lt_trans hk (hc d hd)
    · split
      · rename_i hk
        exact List.pairwise_cons.2 ⟨fun d hd => hk ▸ hc d hd, hm⟩
      · rename_i h1 h2
        refine List.pairwise_cons.2 ⟨fun d hd => ?_, ih hm⟩
        rcases Memory.mem_write hd with rfl | hd
        · show c.1 < k
          omega
        · exact hc d hd

/-- A write below the bound keeps the bound. -/
theorem Memory.below_write {m : Memory} {cap k : Nat} (h : m.below cap) (v : Byte) (hk : k < cap) :
    (m.write k v).below cap := by
  intro c hc
  rcases Memory.mem_write hc with rfl | hc
  · exact hk
  · exact h c hc

@[simp] theorem Memory.writeList_nil (m : Memory) (k : Nat) : m.writeList k [] = m := rfl

@[simp] theorem Memory.writeList_cons (m : Memory) (k : Nat) (v : Byte) (vs : List Byte) :
    m.writeList k (v :: vs) = (m.write k v).writeList (k + 1) vs := rfl

/-- A read after writing consecutive bytes: the byte written where one was, else what was there. -/
theorem Memory.read_writeList (m : Memory) (k : Nat) (vs : List Byte) (j : Nat) :
    (m.writeList k vs).read j = if k ≤ j ∧ j < k + vs.length then vs[j - k]? else m.read j := by
  induction vs generalizing m k with
  | nil => rw [Memory.writeList_nil, if_neg]; simp
  | cons v vs ih =>
    rw [Memory.writeList_cons, ih]
    by_cases h1 : k + 1 ≤ j ∧ j < k + 1 + vs.length
    · rw [if_pos h1, if_pos (by simp; omega), show j - k = (j - (k + 1)) + 1 by omega, List.getElem?_cons_succ]
    · rw [if_neg h1, Memory.read_write]
      by_cases h2 : j = k
      · rw [if_pos h2, if_pos (by simp; omega)]
        simp [h2]
      · rw [if_neg h2, if_neg (by simp; omega)]

/-- Writing consecutive bytes keeps the canonical form. -/
theorem Memory.wf_writeList {m : Memory} (h : m.wf) (k : Nat) (vs : List Byte) : (m.writeList k vs).wf := by
  induction vs generalizing m k with
  | nil => exact h
  | cons v vs ih => exact ih (Memory.wf_write h k v) (k + 1)

/-- Writing consecutive bytes below the bound keeps the bound. -/
theorem Memory.below_writeList {m : Memory} {cap k : Nat} (h : m.below cap) (vs : List Byte)
    (hk : k + vs.length ≤ cap) : (m.writeList k vs).below cap := by
  induction vs generalizing m k with
  | nil => exact h
  | cons v vs ih =>
    simp only [List.length_cons] at hk
    exact ih (Memory.below_write h v (by omega)) (by omega)

/-- What reads give is listed. -/
theorem Memory.mem_of_read {m : Memory} {k : Nat} {v : Byte} (h : m.read k = some v) : (k, v) ∈ m := by
  induction m with
  | nil => cases h
  | cons c m ih =>
    rw [Memory.read_cons] at h
    split at h
    · rename_i hk
      cases h; subst hk; exact List.mem_cons_self
    · exact List.mem_cons_of_mem _ (ih h)

end Sys2Proof.Machine
end

