-- ==== Sys2Proof/Laws/Hostbus.lean ====
section
/-! SUPPORT. What a host access can do, said once: the fields it may change, and that it keeps both memories in their
canonical form and inside their bounds. -/

namespace Sys2Proof.Machine

/-- A host access that is no command changes at most the bus data, the count of free values, IN and the request registers;
while BUSY only the first two. -/
theorem hostAccess_frame (a : HostAccess) (s : State) :
    hostAccess a s = { s with
      inLen := (hostAccess a s).inLen
      reqSlice := (hostAccess a s).reqSlice
      reqWidth := (hostAccess a s).reqWidth
      reqHeight := (hostAccess a s).reqHeight
      reqFlags := (hostAccess a s).reqFlags
      inMem := (hostAccess a s).inMem
      draws := (hostAccess a s).draws
      busData := (hostAccess a s).busData } := by
  cases a with
  | regWrite w off v =>
    simp only [hostAccess, regWrite]
    split
    · rfl
    · split <;> rfl
  | regRead w off =>
    simp only [hostAccess, regRead]
    split
    · rfl
    · split <;> rfl
  | inWrite w addr v =>
    simp only [hostAccess, inWrite]
    split <;> rfl
  | inRead w addr =>
    simp only [hostAccess, inReadAccess]
    split <;> rfl
  | outWrite w addr v => rfl
  | outRead w addr =>
    simp only [hostAccess, outReadAccess]
    split <;> rfl

/-- While BUSY no host access changes a register, IN or OUT (10_state R36). -/
theorem hostAccess_of_busy {a : HostAccess} {s : State} (h : s.status.busy = true) :
    hostAccess a s = { s with draws := (hostAccess a s).draws, busData := (hostAccess a s).busData } := by
  cases a with
  | regWrite w off v => simp [hostAccess, regWrite, h]
  | regRead w off =>
    simp only [hostAccess, regRead]
    split
    · rfl
    · split <;> rfl
  | inWrite w addr v => simp [hostAccess, inWrite, h]
  | inRead w addr =>
    simp only [hostAccess, inReadAccess]
    split <;> rfl
  | outWrite w addr v => rfl
  | outRead w addr =>
    simp only [hostAccess, outReadAccess]
    split <;> rfl

theorem accessible_iff (w : Width) (addr cap : Nat) :
    accessible w addr cap = true ↔ addr % widthBytes w = 0 ∧ addr + widthBytes w ≤ cap := by
  simp [accessible]

/-- Everything a write to IN can do (20_memory R61). -/
theorem inWrite_cases (w : Width) (addr : Nat) (v : Word) (s : State) :
    ((s.status.busy = true ∨ ¬ (addr % widthBytes w = 0 ∧ addr + widthBytes w ≤ s.cfg.inCapacity)) ∧
      inWrite w addr v s = s) ∨
    (s.status.busy = false ∧ addr % widthBytes w = 0 ∧ addr + widthBytes w ≤ s.cfg.inCapacity ∧
      inWrite w addr v s = { s with inMem := s.inMem.writeList addr (leBytes (widthBytes w) v.toNat) }) := by
  unfold inWrite
  rw [← accessible_iff]
  cases hb : s.status.busy <;> cases ha : accessible w addr s.cfg.inCapacity <;> simp
  exact (accessible_iff _ _ _).1 ha

/-- Reset lists nothing in either memory, so both are in canonical form. -/
theorem reset_memory_wf : State.reset.inMem.wf ∧ State.reset.outMem.wf := ⟨List.Pairwise.nil, List.Pairwise.nil⟩

theorem applyReset_memory_wf (s : State) : (applyReset s).inMem.wf ∧ (applyReset s).outMem.wf :=
  ⟨List.Pairwise.nil, List.Pairwise.nil⟩

end Sys2Proof.Machine
end

