-- ==== Sys2Proof/Laws/Operands.lean ====
section
/-! SUPPORT. What reading an operand gives: the bytes of IN, and the fields of the BC7 bit cursor. -/

namespace Sys2Proof.Machine

@[simp] theorem inBytes_zero (s : State) (addr : Nat) : inBytes s addr 0 = [] := rfl

theorem inBytes_succ (s : State) (addr n : Nat) :
    inBytes s addr (n + 1) = inByte s addr :: inBytes s (addr + 1) n := rfl

@[simp] theorem inBytes_length (s : State) (addr n : Nat) : (inBytes s addr n).length = n := by
  induction n generalizing addr with
  | zero => rfl
  | succ n ih => rw [inBytes_succ, List.length_cons, ih]

/-- Byte `j` of a read is byte `addr + j` of IN. -/
theorem inBytes_getElem? (s : State) (addr n j : Nat) (h : j < n) :
    (inBytes s addr n)[j]? = some (inByte s (addr + j)) := by
  induction n generalizing addr j with
  | zero => omega
  | succ n ih =>
    cases j with
    | zero => simp [inBytes_succ]
    | succ j =>
      rw [inBytes_succ, List.getElem?_cons_succ, ih _ _ (by omega), show addr + 1 + j = addr + (j + 1) by omega]

/-- A read depends on the bytes it covers only. -/
theorem inBytes_congr {s t : State} {addr n : Nat} (h : ∀ k, addr ≤ k → k < addr + n → inByte t k = inByte s k) :
    inBytes t addr n = inBytes s addr n := by
  induction n generalizing addr with
  | zero => rfl
  | succ n ih =>
    rw [inBytes_succ, inBytes_succ, h addr (Nat.le_refl _) (by omega), ih fun k h1 h2 => h k (by omega) (by omega)]

theorem inRead_lt (s : State) (addr n : Nat) : inRead s addr n < 256 ^ n := by
  have h := leNat_lt (inBytes s addr n)
  rwa [inBytes_length] at h

theorem inRead_congr {s t : State} {addr n : Nat} (h : ∀ k, addr ≤ k → k < addr + n → inByte t k = inByte s k) :
    inRead t addr n = inRead s addr n := by rw [inRead, inBytes_congr h, inRead]

/-- A header word is exact: a 32-bit read loses nothing. -/
theorem inWord_toNat (s : State) (addr : Nat) : (inWord s addr).toNat = inRead s addr 4 := by
  have h : inRead s addr 4 < 2 ^ 32 := inRead_lt s addr 4
  rw [inWord, BitVec.toNat_ofNat, Nat.mod_eq_of_lt h]

/-- Two states with the same IN and reset epoch read the same bytes. -/
theorem inByte_congr {s t : State} (hm : t.inMem = s.inMem) (he : t.epoch = s.epoch) (k : Nat) :
    inByte t k = inByte s k := by rw [inByte, inByte, hm, he]

/-! ## The BC7 bit cursor -/

/-- A field read succeeds exactly when it ends at or below bit 128; its value and the cursor behind it. -/
theorem readBits_of_le {n : Nat} {c : Cursor} (h : c.pos + n ≤ 128) :
    readBits n c = .ok (blockField c.bytes c.pos n, { c with pos := c.pos + n }) := by
  rw [readBits, if_neg (by omega)]

theorem blockField_lt (bytes : List Byte) (p n : Nat) : blockField bytes p n < 2 ^ n := by
  induction n generalizing p with
  | zero => simp [blockField]
  | succ n ih =>
    have h1 := ih (p + 1)
    have h2 : blockBit bytes p < 2 := Nat.mod_lt _ (by decide)
    rw [blockField, Nat.pow_succ]
    omega

@[simp] theorem readMany_nil (c : Cursor) : readMany [] c = .ok ([], c) := rfl

/-- Reading several fields that all end at or below bit 128: each field at its own place, one behind the other. -/
theorem readMany_of_le (ns : List Nat) (c : Cursor) (h : c.pos + ns.sum ≤ 128) :
    readMany ns c = .ok
      (ns.mapIdx fun j n => blockField c.bytes (c.pos + (ns.take j).sum) n, { c with pos := c.pos + ns.sum }) := by
  induction ns generalizing c with
  | nil => simp
  | cons n ns ih =>
    rw [List.sum_cons] at h
    rw [readMany, readBits_of_le (by omega)]
    dsimp only
    rw [ih _ (by dsimp only; omega)]
    simp [List.mapIdx_cons, Nat.add_assoc]

end Sys2Proof.Machine
end

