-- ==== Sys2Proof/Laws/State.lean ====
section
/-! SUPPORT. One lemma per field per named update of State, each true by definition, so that no proof unfolds a record
update. The updates of the raster counters are at the end. -/

namespace Sys2Proof.Machine

/-! ## releaseEngine -/

@[simp] theorem releaseEngine_cfg (s : State) : (releaseEngine s).cfg = s.cfg := rfl
@[simp] theorem releaseEngine_status (s : State) : (releaseEngine s).status = s.status := rfl
@[simp] theorem releaseEngine_inLen (s : State) : (releaseEngine s).inLen = s.inLen := rfl
@[simp] theorem releaseEngine_reqSlice (s : State) : (releaseEngine s).reqSlice = s.reqSlice := rfl
@[simp] theorem releaseEngine_reqWidth (s : State) : (releaseEngine s).reqWidth = s.reqWidth := rfl
@[simp] theorem releaseEngine_reqHeight (s : State) : (releaseEngine s).reqHeight = s.reqHeight := rfl
@[simp] theorem releaseEngine_reqFlags (s : State) : (releaseEngine s).reqFlags = s.reqFlags := rfl
@[simp] theorem releaseEngine_outWidth (s : State) : (releaseEngine s).outWidth = s.outWidth := rfl
@[simp] theorem releaseEngine_outHeight (s : State) : (releaseEngine s).outHeight = s.outHeight := rfl
@[simp] theorem releaseEngine_outFormat (s : State) : (releaseEngine s).outFormat = s.outFormat := rfl
@[simp] theorem releaseEngine_ptOffset (s : State) : (releaseEngine s).ptOffset = s.ptOffset := rfl
@[simp] theorem releaseEngine_ptLength (s : State) : (releaseEngine s).ptLength = s.ptLength := rfl
@[simp] theorem releaseEngine_errInfo (s : State) : (releaseEngine s).errInfo = s.errInfo := rfl
@[simp] theorem releaseEngine_errBlock (s : State) : (releaseEngine s).errBlock = s.errBlock := rfl
@[simp] theorem releaseEngine_hdr (s : State) : (releaseEngine s).hdr = s.hdr := rfl
@[simp] theorem releaseEngine_sliceOffset (s : State) : (releaseEngine s).sliceOffset = s.sliceOffset := rfl
@[simp] theorem releaseEngine_sliceSize (s : State) : (releaseEngine s).sliceSize = s.sliceSize := rfl
@[simp] theorem releaseEngine_inMem (s : State) : (releaseEngine s).inMem = s.inMem := rfl
@[simp] theorem releaseEngine_outMem (s : State) : (releaseEngine s).outMem = s.outMem := rfl
@[simp] theorem releaseEngine_phase (s : State) : (releaseEngine s).phase = s.phase := rfl
@[simp] theorem releaseEngine_parse (s : State) : (releaseEngine s).parse = Config.leftoverParse s.draws := rfl
@[simp] theorem releaseEngine_loc (s : State) : (releaseEngine s).loc = Config.leftoverLocate s.draws := rfl
@[simp] theorem releaseEngine_ras (s : State) : (releaseEngine s).ras = Config.leftoverRaster s.draws := rfl
@[simp] theorem releaseEngine_bc7 (s : State) : (releaseEngine s).bc7 = Config.leftoverBc7 s.draws := rfl
@[simp] theorem releaseEngine_dxt (s : State) : (releaseEngine s).dxt = Config.leftoverDxt s.draws := rfl
@[simp] theorem releaseEngine_draws (s : State) : (releaseEngine s).draws = s.draws + 1 := rfl
@[simp] theorem releaseEngine_epoch (s : State) : (releaseEngine s).epoch = s.epoch := rfl
@[simp] theorem releaseEngine_turns (s : State) : (releaseEngine s).turns = s.turns := rfl
@[simp] theorem releaseEngine_busData (s : State) : (releaseEngine s).busData = s.busData := rfl

/-! ## releaseDatapath -/

@[simp] theorem releaseDatapath_cfg (s : State) : (releaseDatapath s).cfg = s.cfg := rfl
@[simp] theorem releaseDatapath_status (s : State) : (releaseDatapath s).status = s.status := rfl
@[simp] theorem releaseDatapath_inLen (s : State) : (releaseDatapath s).inLen = s.inLen := rfl
@[simp] theorem releaseDatapath_reqSlice (s : State) : (releaseDatapath s).reqSlice = s.reqSlice := rfl
@[simp] theorem releaseDatapath_reqWidth (s : State) : (releaseDatapath s).reqWidth = s.reqWidth := rfl
@[simp] theorem releaseDatapath_reqHeight (s : State) : (releaseDatapath s).reqHeight = s.reqHeight := rfl
@[simp] theorem releaseDatapath_reqFlags (s : State) : (releaseDatapath s).reqFlags = s.reqFlags := rfl
@[simp] theorem releaseDatapath_outWidth (s : State) : (releaseDatapath s).outWidth = s.outWidth := rfl
@[simp] theorem releaseDatapath_outHeight (s : State) : (releaseDatapath s).outHeight = s.outHeight := rfl
@[simp] theorem releaseDatapath_outFormat (s : State) : (releaseDatapath s).outFormat = s.outFormat := rfl
@[simp] theorem releaseDatapath_ptOffset (s : State) : (releaseDatapath s).ptOffset = s.ptOffset := rfl
@[simp] theorem releaseDatapath_ptLength (s : State) : (releaseDatapath s).ptLength = s.ptLength := rfl
@[simp] theorem releaseDatapath_errInfo (s : State) : (releaseDatapath s).errInfo = s.errInfo := rfl
@[simp] theorem releaseDatapath_errBlock (s : State) : (releaseDatapath s).errBlock = s.errBlock := rfl
@[simp] theorem releaseDatapath_hdr (s : State) : (releaseDatapath s).hdr = s.hdr := rfl
@[simp] theorem releaseDatapath_sliceOffset (s : State) : (releaseDatapath s).sliceOffset = s.sliceOffset := rfl
@[simp] theorem releaseDatapath_sliceSize (s : State) : (releaseDatapath s).sliceSize = s.sliceSize := rfl
@[simp] theorem releaseDatapath_inMem (s : State) : (releaseDatapath s).inMem = s.inMem := rfl
@[simp] theorem releaseDatapath_outMem (s : State) : (releaseDatapath s).outMem = s.outMem := rfl
@[simp] theorem releaseDatapath_phase (s : State) : (releaseDatapath s).phase = s.phase := rfl
@[simp] theorem releaseDatapath_parse (s : State) : (releaseDatapath s).parse = s.parse := rfl
@[simp] theorem releaseDatapath_loc (s : State) : (releaseDatapath s).loc = s.loc := rfl
@[simp] theorem releaseDatapath_ras (s : State) : (releaseDatapath s).ras = s.ras := rfl
@[simp] theorem releaseDatapath_bc7 (s : State) : (releaseDatapath s).bc7 = Config.leftoverBc7 s.draws := rfl
@[simp] theorem releaseDatapath_dxt (s : State) : (releaseDatapath s).dxt = Config.leftoverDxt s.draws := rfl
@[simp] theorem releaseDatapath_draws (s : State) : (releaseDatapath s).draws = s.draws + 1 := rfl
@[simp] theorem releaseDatapath_epoch (s : State) : (releaseDatapath s).epoch = s.epoch := rfl
@[simp] theorem releaseDatapath_turns (s : State) : (releaseDatapath s).turns = s.turns := rfl
@[simp] theorem releaseDatapath_busData (s : State) : (releaseDatapath s).busData = s.busData := rfl

/-! ## startDecode -/

@[simp] theorem startDecode_cfg (s : State) : (startDecode s).cfg = s.cfg := rfl
@[simp] theorem startDecode_status (s : State) : (startDecode s).status = ⟨true, false, false, false, .none⟩ := rfl
@[simp] theorem startDecode_inLen (s : State) : (startDecode s).inLen = s.inLen := rfl
@[simp] theorem startDecode_reqSlice (s : State) : (startDecode s).reqSlice = s.reqSlice := rfl
@[simp] theorem startDecode_reqWidth (s : State) : (startDecode s).reqWidth = s.reqWidth := rfl
@[simp] theorem startDecode_reqHeight (s : State) : (startDecode s).reqHeight = s.reqHeight := rfl
@[simp] theorem startDecode_reqFlags (s : State) : (startDecode s).reqFlags = s.reqFlags := rfl
@[simp] theorem startDecode_outWidth (s : State) : (startDecode s).outWidth = 0 := rfl
@[simp] theorem startDecode_outHeight (s : State) : (startDecode s).outHeight = 0 := rfl
@[simp] theorem startDecode_outFormat (s : State) : (startDecode s).outFormat = 0 := rfl
@[simp] theorem startDecode_ptOffset (s : State) : (startDecode s).ptOffset = 0 := rfl
@[simp] theorem startDecode_ptLength (s : State) : (startDecode s).ptLength = 0 := rfl
@[simp] theorem startDecode_errInfo (s : State) : (startDecode s).errInfo = 0 := rfl
@[simp] theorem startDecode_errBlock (s : State) : (startDecode s).errBlock = 0 := rfl
@[simp] theorem startDecode_hdr (s : State) : (startDecode s).hdr = HeaderRegs.zero := rfl
@[simp] theorem startDecode_sliceOffset (s : State) : (startDecode s).sliceOffset = 0 := rfl
@[simp] theorem startDecode_sliceSize (s : State) : (startDecode s).sliceSize = 0 := rfl
@[simp] theorem startDecode_inMem (s : State) : (startDecode s).inMem = s.inMem := rfl
@[simp] theorem startDecode_outMem (s : State) : (startDecode s).outMem = s.outMem := rfl
@[simp] theorem startDecode_phase (s : State) : (startDecode s).phase = .parse := rfl
@[simp] theorem startDecode_parse (s : State) : (startDecode s).parse = s.parse := rfl
@[simp] theorem startDecode_loc (s : State) : (startDecode s).loc = s.loc := rfl
@[simp] theorem startDecode_ras (s : State) : (startDecode s).ras = s.ras := rfl
@[simp] theorem startDecode_bc7 (s : State) : (startDecode s).bc7 = s.bc7 := rfl
@[simp] theorem startDecode_dxt (s : State) : (startDecode s).dxt = s.dxt := rfl
@[simp] theorem startDecode_draws (s : State) : (startDecode s).draws = s.draws := rfl
@[simp] theorem startDecode_epoch (s : State) : (startDecode s).epoch = s.epoch := rfl
@[simp] theorem startDecode_turns (s : State) : (startDecode s).turns = s.turns := rfl
@[simp] theorem startDecode_busData (s : State) : (startDecode s).busData = s.busData := rfl

/-! ## raiseFail -/

@[simp] theorem raiseFail_cfg (f : Failure) (s : State) : (raiseFail f s).cfg = s.cfg := rfl
@[simp] theorem raiseFail_status (f : Failure) (s : State) : (raiseFail f s).status = ⟨false, true, false, false, failureResult f⟩ := rfl
@[simp] theorem raiseFail_inLen (f : Failure) (s : State) : (raiseFail f s).inLen = s.inLen := rfl
@[simp] theorem raiseFail_reqSlice (f : Failure) (s : State) : (raiseFail f s).reqSlice = s.reqSlice := rfl
@[simp] theorem raiseFail_reqWidth (f : Failure) (s : State) : (raiseFail f s).reqWidth = s.reqWidth := rfl
@[simp] theorem raiseFail_reqHeight (f : Failure) (s : State) : (raiseFail f s).reqHeight = s.reqHeight := rfl
@[simp] theorem raiseFail_reqFlags (f : Failure) (s : State) : (raiseFail f s).reqFlags = s.reqFlags := rfl
@[simp] theorem raiseFail_outWidth (f : Failure) (s : State) : (raiseFail f s).outWidth = s.outWidth := rfl
@[simp] theorem raiseFail_outHeight (f : Failure) (s : State) : (raiseFail f s).outHeight = s.outHeight := rfl
@[simp] theorem raiseFail_outFormat (f : Failure) (s : State) : (raiseFail f s).outFormat = s.outFormat := rfl
@[simp] theorem raiseFail_ptOffset (f : Failure) (s : State) : (raiseFail f s).ptOffset = s.ptOffset := rfl
@[simp] theorem raiseFail_ptLength (f : Failure) (s : State) : (raiseFail f s).ptLength = s.ptLength := rfl
@[simp] theorem raiseFail_errInfo (f : Failure) (s : State) : (raiseFail f s).errInfo = if failureResult f = .errStructural then failureInfo f else s.errInfo := rfl
@[simp] theorem raiseFail_errBlock (f : Failure) (s : State) : (raiseFail f s).errBlock = s.errBlock := rfl
@[simp] theorem raiseFail_hdr (f : Failure) (s : State) : (raiseFail f s).hdr = s.hdr := rfl
@[simp] theorem raiseFail_sliceOffset (f : Failure) (s : State) : (raiseFail f s).sliceOffset = s.sliceOffset := rfl
@[simp] theorem raiseFail_sliceSize (f : Failure) (s : State) : (raiseFail f s).sliceSize = s.sliceSize := rfl
@[simp] theorem raiseFail_inMem (f : Failure) (s : State) : (raiseFail f s).inMem = s.inMem := rfl
@[simp] theorem raiseFail_outMem (f : Failure) (s : State) : (raiseFail f s).outMem = s.outMem := rfl
@[simp] theorem raiseFail_phase (f : Failure) (s : State) : (raiseFail f s).phase = .idle := rfl
@[simp] theorem raiseFail_parse (f : Failure) (s : State) : (raiseFail f s).parse = Config.leftoverParse s.draws := rfl
@[simp] theorem raiseFail_loc (f : Failure) (s : State) : (raiseFail f s).loc = Config.leftoverLocate s.draws := rfl
@[simp] theorem raiseFail_ras (f : Failure) (s : State) : (raiseFail f s).ras = Config.leftoverRaster s.draws := rfl
@[simp] theorem raiseFail_bc7 (f : Failure) (s : State) : (raiseFail f s).bc7 = Config.leftoverBc7 s.draws := rfl
@[simp] theorem raiseFail_dxt (f : Failure) (s : State) : (raiseFail f s).dxt = Config.leftoverDxt s.draws := rfl
@[simp] theorem raiseFail_draws (f : Failure) (s : State) : (raiseFail f s).draws = s.draws + 1 := rfl
@[simp] theorem raiseFail_epoch (f : Failure) (s : State) : (raiseFail f s).epoch = s.epoch := rfl
@[simp] theorem raiseFail_turns (f : Failure) (s : State) : (raiseFail f s).turns = s.turns := rfl
@[simp] theorem raiseFail_busData (f : Failure) (s : State) : (raiseFail f s).busData = s.busData := rfl

/-! ## raiseBlockFail -/

@[simp] theorem raiseBlockFail_cfg (f : Failure) (k : Nat) (s : State) : (raiseBlockFail f k s).cfg = s.cfg := rfl
@[simp] theorem raiseBlockFail_status (f : Failure) (k : Nat) (s : State) : (raiseBlockFail f k s).status = ⟨false, true, false, false, failureResult f⟩ := rfl
@[simp] theorem raiseBlockFail_inLen (f : Failure) (k : Nat) (s : State) : (raiseBlockFail f k s).inLen = s.inLen := rfl
@[simp] theorem raiseBlockFail_reqSlice (f : Failure) (k : Nat) (s : State) : (raiseBlockFail f k s).reqSlice = s.reqSlice := rfl
@[simp] theorem raiseBlockFail_reqWidth (f : Failure) (k : Nat) (s : State) : (raiseBlockFail f k s).reqWidth = s.reqWidth := rfl
@[simp] theorem raiseBlockFail_reqHeight (f : Failure) (k : Nat) (s : State) : (raiseBlockFail f k s).reqHeight = s.reqHeight := rfl
@[simp] theorem raiseBlockFail_reqFlags (f : Failure) (k : Nat) (s : State) : (raiseBlockFail f k s).reqFlags = s.reqFlags := rfl
@[simp] theorem raiseBlockFail_outWidth (f : Failure) (k : Nat) (s : State) : (raiseBlockFail f k s).outWidth = s.outWidth := rfl
@[simp] theorem raiseBlockFail_outHeight (f : Failure) (k : Nat) (s : State) : (raiseBlockFail f k s).outHeight = s.outHeight := rfl
@[simp] theorem raiseBlockFail_outFormat (f : Failure) (k : Nat) (s : State) : (raiseBlockFail f k s).outFormat = s.outFormat := rfl
@[simp] theorem raiseBlockFail_ptOffset (f : Failure) (k : Nat) (s : State) : (raiseBlockFail f k s).ptOffset = s.ptOffset := rfl
@[simp] theorem raiseBlockFail_ptLength (f : Failure) (k : Nat) (s : State) : (raiseBlockFail f k s).ptLength = s.ptLength := rfl
@[simp] theorem raiseBlockFail_errInfo (f : Failure) (k : Nat) (s : State) : (raiseBlockFail f k s).errInfo = if failureResult f = .errStructural then failureInfo f else s.errInfo := rfl
@[simp] theorem raiseBlockFail_errBlock (f : Failure) (k : Nat) (s : State) : (raiseBlockFail f k s).errBlock = BitVec.ofNat 32 k := rfl
@[simp] theorem raiseBlockFail_hdr (f : Failure) (k : Nat) (s : State) : (raiseBlockFail f k s).hdr = s.hdr := rfl
@[simp] theorem raiseBlockFail_sliceOffset (f : Failure) (k : Nat) (s : State) : (raiseBlockFail f k s).sliceOffset = s.sliceOffset := rfl
@[simp] theorem raiseBlockFail_sliceSize (f : Failure) (k : Nat) (s : State) : (raiseBlockFail f k s).sliceSize = s.sliceSize := rfl
@[simp] theorem raiseBlockFail_inMem (f : Failure) (k : Nat) (s : State) : (raiseBlockFail f k s).inMem = s.inMem := rfl
@[simp] theorem raiseBlockFail_outMem (f : Failure) (k : Nat) (s : State) : (raiseBlockFail f k s).outMem = s.outMem := rfl
@[simp] theorem raiseBlockFail_phase (f : Failure) (k : Nat) (s : State) : (raiseBlockFail f k s).phase = .idle := rfl
@[simp] theorem raiseBlockFail_parse (f : Failure) (k : Nat) (s : State) : (raiseBlockFail f k s).parse = Config.leftoverParse s.draws := rfl
@[simp] theorem raiseBlockFail_loc (f : Failure) (k : Nat) (s : State) : (raiseBlockFail f k s).loc = Config.leftoverLocate s.draws := rfl
@[simp] theorem raiseBlockFail_ras (f : Failure) (k : Nat) (s : State) : (raiseBlockFail f k s).ras = Config.leftoverRaster s.draws := rfl
@[simp] theorem raiseBlockFail_bc7 (f : Failure) (k : Nat) (s : State) : (raiseBlockFail f k s).bc7 = Config.leftoverBc7 s.draws := rfl
@[simp] theorem raiseBlockFail_dxt (f : Failure) (k : Nat) (s : State) : (raiseBlockFail f k s).dxt = Config.leftoverDxt s.draws := rfl
@[simp] theorem raiseBlockFail_draws (f : Failure) (k : Nat) (s : State) : (raiseBlockFail f k s).draws = s.draws + 1 := rfl
@[simp] theorem raiseBlockFail_epoch (f : Failure) (k : Nat) (s : State) : (raiseBlockFail f k s).epoch = s.epoch := rfl
@[simp] theorem raiseBlockFail_turns (f : Failure) (k : Nat) (s : State) : (raiseBlockFail f k s).turns = s.turns := rfl
@[simp] theorem raiseBlockFail_busData (f : Failure) (k : Nat) (s : State) : (raiseBlockFail f k s).busData = s.busData := rfl

/-! ## completeOk -/

@[simp] theorem completeOk_cfg (s : State) : (completeOk s).cfg = s.cfg := rfl
@[simp] theorem completeOk_status (s : State) : (completeOk s).status = ⟨false, true, true, s.status.ptValid, .ok⟩ := rfl
@[simp] theorem completeOk_inLen (s : State) : (completeOk s).inLen = s.inLen := rfl
@[simp] theorem completeOk_reqSlice (s : State) : (completeOk s).reqSlice = s.reqSlice := rfl
@[simp] theorem completeOk_reqWidth (s : State) : (completeOk s).reqWidth = s.reqWidth := rfl
@[simp] theorem completeOk_reqHeight (s : State) : (completeOk s).reqHeight = s.reqHeight := rfl
@[simp] theorem completeOk_reqFlags (s : State) : (completeOk s).reqFlags = s.reqFlags := rfl
@[simp] theorem completeOk_outWidth (s : State) : (completeOk s).outWidth = BitVec.ofNat 32 s.ras.W := rfl
@[simp] theorem completeOk_outHeight (s : State) : (completeOk s).outHeight = BitVec.ofNat 32 s.ras.H := rfl
@[simp] theorem completeOk_outFormat (s : State) : (completeOk s).outFormat = s.outFormat := rfl
@[simp] theorem completeOk_ptOffset (s : State) : (completeOk s).ptOffset = s.ptOffset := rfl
@[simp] theorem completeOk_ptLength (s : State) : (completeOk s).ptLength = s.ptLength := rfl
@[simp] theorem completeOk_errInfo (s : State) : (completeOk s).errInfo = s.errInfo := rfl
@[simp] theorem completeOk_errBlock (s : State) : (completeOk s).errBlock = s.errBlock := rfl
@[simp] theorem completeOk_hdr (s : State) : (completeOk s).hdr = s.hdr := rfl
@[simp] theorem completeOk_sliceOffset (s : State) : (completeOk s).sliceOffset = s.sliceOffset := rfl
@[simp] theorem completeOk_sliceSize (s : State) : (completeOk s).sliceSize = s.sliceSize := rfl
@[simp] theorem completeOk_inMem (s : State) : (completeOk s).inMem = s.inMem := rfl
@[simp] theorem completeOk_outMem (s : State) : (completeOk s).outMem = s.outMem := rfl
@[simp] theorem completeOk_phase (s : State) : (completeOk s).phase = .idle := rfl
@[simp] theorem completeOk_parse (s : State) : (completeOk s).parse = Config.leftoverParse s.draws := rfl
@[simp] theorem completeOk_loc (s : State) : (completeOk s).loc = Config.leftoverLocate s.draws := rfl
@[simp] theorem completeOk_ras (s : State) : (completeOk s).ras = Config.leftoverRaster s.draws := rfl
@[simp] theorem completeOk_bc7 (s : State) : (completeOk s).bc7 = Config.leftoverBc7 s.draws := rfl
@[simp] theorem completeOk_dxt (s : State) : (completeOk s).dxt = Config.leftoverDxt s.draws := rfl
@[simp] theorem completeOk_draws (s : State) : (completeOk s).draws = s.draws + 1 := rfl
@[simp] theorem completeOk_epoch (s : State) : (completeOk s).epoch = s.epoch := rfl
@[simp] theorem completeOk_turns (s : State) : (completeOk s).turns = s.turns := rfl
@[simp] theorem completeOk_busData (s : State) : (completeOk s).busData = s.busData := rfl

/-! ## completePassThrough -/

@[simp] theorem completePassThrough_cfg (s : State) : (completePassThrough s).cfg = s.cfg := rfl
@[simp] theorem completePassThrough_status (s : State) : (completePassThrough s).status = ⟨false, true, s.status.rasterValid, true, .passThrough⟩ := rfl
@[simp] theorem completePassThrough_inLen (s : State) : (completePassThrough s).inLen = s.inLen := rfl
@[simp] theorem completePassThrough_reqSlice (s : State) : (completePassThrough s).reqSlice = s.reqSlice := rfl
@[simp] theorem completePassThrough_reqWidth (s : State) : (completePassThrough s).reqWidth = s.reqWidth := rfl
@[simp] theorem completePassThrough_reqHeight (s : State) : (completePassThrough s).reqHeight = s.reqHeight := rfl
@[simp] theorem completePassThrough_reqFlags (s : State) : (completePassThrough s).reqFlags = s.reqFlags := rfl
@[simp] theorem completePassThrough_outWidth (s : State) : (completePassThrough s).outWidth = s.outWidth := rfl
@[simp] theorem completePassThrough_outHeight (s : State) : (completePassThrough s).outHeight = s.outHeight := rfl
@[simp] theorem completePassThrough_outFormat (s : State) : (completePassThrough s).outFormat = outFormatWord .passThrough false := rfl
@[simp] theorem completePassThrough_ptOffset (s : State) : (completePassThrough s).ptOffset = BitVec.ofNat 32 s.parse.hl := rfl
@[simp] theorem completePassThrough_ptLength (s : State) : (completePassThrough s).ptLength = BitVec.ofNat 32 (streamLength s - s.parse.hl) := rfl
@[simp] theorem completePassThrough_errInfo (s : State) : (completePassThrough s).errInfo = s.errInfo := rfl
@[simp] theorem completePassThrough_errBlock (s : State) : (completePassThrough s).errBlock = s.errBlock := rfl
@[simp] theorem completePassThrough_hdr (s : State) : (completePassThrough s).hdr = s.hdr := rfl
@[simp] theorem completePassThrough_sliceOffset (s : State) : (completePassThrough s).sliceOffset = s.sliceOffset := rfl
@[simp] theorem completePassThrough_sliceSize (s : State) : (completePassThrough s).sliceSize = s.sliceSize := rfl
@[simp] theorem completePassThrough_inMem (s : State) : (completePassThrough s).inMem = s.inMem := rfl
@[simp] theorem completePassThrough_outMem (s : State) : (completePassThrough s).outMem = s.outMem := rfl
@[simp] theorem completePassThrough_phase (s : State) : (completePassThrough s).phase = .idle := rfl
@[simp] theorem completePassThrough_parse (s : State) : (completePassThrough s).parse = Config.leftoverParse s.draws := rfl
@[simp] theorem completePassThrough_loc (s : State) : (completePassThrough s).loc = Config.leftoverLocate s.draws := rfl
@[simp] theorem completePassThrough_ras (s : State) : (completePassThrough s).ras = Config.leftoverRaster s.draws := rfl
@[simp] theorem completePassThrough_bc7 (s : State) : (completePassThrough s).bc7 = Config.leftoverBc7 s.draws := rfl
@[simp] theorem completePassThrough_dxt (s : State) : (completePassThrough s).dxt = Config.leftoverDxt s.draws := rfl
@[simp] theorem completePassThrough_draws (s : State) : (completePassThrough s).draws = s.draws + 1 := rfl
@[simp] theorem completePassThrough_epoch (s : State) : (completePassThrough s).epoch = s.epoch := rfl
@[simp] theorem completePassThrough_turns (s : State) : (completePassThrough s).turns = s.turns := rfl
@[simp] theorem completePassThrough_busData (s : State) : (completePassThrough s).busData = s.busData := rfl

/-! ## nextBlock -/

@[simp] theorem nextBlock_cfg (s : State) : (nextBlock s).cfg = s.cfg := by
  unfold nextBlock; split <;> [rfl; (split <;> rfl)]
@[simp] theorem nextBlock_status (s : State) : (nextBlock s).status = s.status := by
  unfold nextBlock; split <;> [rfl; (split <;> rfl)]
@[simp] theorem nextBlock_inLen (s : State) : (nextBlock s).inLen = s.inLen := by
  unfold nextBlock; split <;> [rfl; (split <;> rfl)]
@[simp] theorem nextBlock_reqSlice (s : State) : (nextBlock s).reqSlice = s.reqSlice := by
  unfold nextBlock; split <;> [rfl; (split <;> rfl)]
@[simp] theorem nextBlock_reqWidth (s : State) : (nextBlock s).reqWidth = s.reqWidth := by
  unfold nextBlock; split <;> [rfl; (split <;> rfl)]
@[simp] theorem nextBlock_reqHeight (s : State) : (nextBlock s).reqHeight = s.reqHeight := by
  unfold nextBlock; split <;> [rfl; (split <;> rfl)]
@[simp] theorem nextBlock_reqFlags (s : State) : (nextBlock s).reqFlags = s.reqFlags := by
  unfold nextBlock; split <;> [rfl; (split <;> rfl)]
@[simp] theorem nextBlock_outWidth (s : State) : (nextBlock s).outWidth = s.outWidth := by
  unfold nextBlock; split <;> [rfl; (split <;> rfl)]
@[simp] theorem nextBlock_outHeight (s : State) : (nextBlock s).outHeight = s.outHeight := by
  unfold nextBlock; split <;> [rfl; (split <;> rfl)]
@[simp] theorem nextBlock_outFormat (s : State) : (nextBlock s).outFormat = s.outFormat := by
  unfold nextBlock; split <;> [rfl; (split <;> rfl)]
@[simp] theorem nextBlock_ptOffset (s : State) : (nextBlock s).ptOffset = s.ptOffset := by
  unfold nextBlock; split <;> [rfl; (split <;> rfl)]
@[simp] theorem nextBlock_ptLength (s : State) : (nextBlock s).ptLength = s.ptLength := by
  unfold nextBlock; split <;> [rfl; (split <;> rfl)]
@[simp] theorem nextBlock_errInfo (s : State) : (nextBlock s).errInfo = s.errInfo := by
  unfold nextBlock; split <;> [rfl; (split <;> rfl)]
@[simp] theorem nextBlock_errBlock (s : State) : (nextBlock s).errBlock = s.errBlock := by
  unfold nextBlock; split <;> [rfl; (split <;> rfl)]
@[simp] theorem nextBlock_hdr (s : State) : (nextBlock s).hdr = s.hdr := by
  unfold nextBlock; split <;> [rfl; (split <;> rfl)]
@[simp] theorem nextBlock_sliceOffset (s : State) : (nextBlock s).sliceOffset = s.sliceOffset := by
  unfold nextBlock; split <;> [rfl; (split <;> rfl)]
@[simp] theorem nextBlock_sliceSize (s : State) : (nextBlock s).sliceSize = s.sliceSize := by
  unfold nextBlock; split <;> [rfl; (split <;> rfl)]
@[simp] theorem nextBlock_inMem (s : State) : (nextBlock s).inMem = s.inMem := by
  unfold nextBlock; split <;> [rfl; (split <;> rfl)]
@[simp] theorem nextBlock_outMem (s : State) : (nextBlock s).outMem = s.outMem := by
  unfold nextBlock; split <;> [rfl; (split <;> rfl)]
@[simp] theorem nextBlock_parse (s : State) : (nextBlock s).parse = s.parse := by
  unfold nextBlock; split <;> [rfl; (split <;> rfl)]
@[simp] theorem nextBlock_loc (s : State) : (nextBlock s).loc = s.loc := by
  unfold nextBlock; split <;> [rfl; (split <;> rfl)]
@[simp] theorem nextBlock_bc7 (s : State) : (nextBlock s).bc7 = s.bc7 := by
  unfold nextBlock; split <;> [rfl; (split <;> rfl)]
@[simp] theorem nextBlock_dxt (s : State) : (nextBlock s).dxt = s.dxt := by
  unfold nextBlock; split <;> [rfl; (split <;> rfl)]
@[simp] theorem nextBlock_draws (s : State) : (nextBlock s).draws = s.draws := by
  unfold nextBlock; split <;> [rfl; (split <;> rfl)]
@[simp] theorem nextBlock_epoch (s : State) : (nextBlock s).epoch = s.epoch := by
  unfold nextBlock; split <;> [rfl; (split <;> rfl)]
@[simp] theorem nextBlock_turns (s : State) : (nextBlock s).turns = s.turns := by
  unfold nextBlock; split <;> [rfl; (split <;> rfl)]
@[simp] theorem nextBlock_busData (s : State) : (nextBlock s).busData = s.busData := by
  unfold nextBlock; split <;> [rfl; (split <;> rfl)]
@[simp] theorem nextBlock_ras_W (s : State) : (nextBlock s).ras.W = s.ras.W := by
  unfold nextBlock; split <;> [rfl; (split <;> rfl)]
@[simp] theorem nextBlock_ras_H (s : State) : (nextBlock s).ras.H = s.ras.H := by
  unfold nextBlock; split <;> [rfl; (split <;> rfl)]
@[simp] theorem nextBlock_ras_BW (s : State) : (nextBlock s).ras.BW = s.ras.BW := by
  unfold nextBlock; split <;> [rfl; (split <;> rfl)]
@[simp] theorem nextBlock_ras_BH (s : State) : (nextBlock s).ras.BH = s.ras.BH := by
  unfold nextBlock; split <;> [rfl; (split <;> rfl)]

theorem nextBlock_ras_blkX (s : State) :
    (nextBlock s).ras.blkX = if s.ras.blkX + 1 < s.ras.BW then s.ras.blkX + 1 else 0 := by
  unfold nextBlock; split <;> [rfl; (split <;> rfl)]

theorem nextBlock_ras_blkY (s : State) :
    (nextBlock s).ras.blkY = if s.ras.blkX + 1 < s.ras.BW then s.ras.blkY else s.ras.blkY + 1 := by
  unfold nextBlock; split <;> [rfl; (split <;> rfl)]

theorem nextBlock_phase (s : State) :
    (nextBlock s).phase =
      if s.ras.blkX + 1 < s.ras.BW then s.phase else if s.ras.blkY + 1 < s.ras.BH then s.phase else .alpha := by
  unfold nextBlock; split <;> [rfl; (split <;> rfl)]

end Sys2Proof.Machine
end

