-- ==== Sys2Proof/Laws/Ops.lean ====
section
/-! SUPPORT. What the shared operations of Machine/Ops.lean can do, each said once: the raster writes byte by byte, the
block counters, the end of a block, and that every one of them keeps the canonical form and the bound of OUT. -/

namespace Sys2Proof.Machine

/-! ## Pixels -/

@[simp] theorem pixelBytes_length (p : Pixel) : (pixelBytes p).length = 4 := rfl

/-- Byte `a` of OUT is one of the four bytes of pixel `i` of the current block. -/
abbrev Covers (r : RasterRegs) (i a : Nat) : Prop :=
  4 * r.blkX + i % 4 < r.W ∧ 4 * r.blkY + i / 4 < r.H ∧
    pixelAddr r.W (4 * r.blkX + i % 4) (4 * r.blkY + i / 4) ≤ a ∧
    a < pixelAddr r.W (4 * r.blkX + i % 4) (4 * r.blkY + i / 4) + 4

/-- What a read sees after one pixel is written: the pixel's byte where it covers the address, else what was there. -/
theorem read_writePixel (r : RasterRegs) (m : Memory) (i : Nat) (p : Pixel) (a : Nat) :
    (writePixel r m i p).read a =
      if Covers r i a then
        (pixelBytes p)[a - pixelAddr r.W (4 * r.blkX + i % 4) (4 * r.blkY + i / 4)]?
      else m.read a := by
  unfold writePixel
  by_cases h : 4 * r.blkX + i % 4 < r.W ∧ 4 * r.blkY + i / 4 < r.H
  · rw [if_pos h, Memory.read_writeList, pixelBytes_length]
    simp [Covers, h.1, h.2]
  · rw [if_neg h, if_neg fun hc => h ⟨hc.1, hc.2.1⟩]

/-- Two pixels of a block cover no byte in common. -/
theorem covers_unique {r : RasterRegs} {i j a : Nat} (h1 : Covers r i a) (h2 : Covers r j a) : i = j := by
  obtain ⟨hx, hy, hl, hu⟩ := h1
  obtain ⟨hx', hy', hl', hu'⟩ := h2
  unfold pixelAddr at hl hu hl' hu'
  generalize hY : 4 * r.blkY + i / 4 = Y at *
  generalize hY' : 4 * r.blkY + j / 4 = Y' at *
  generalize hX : 4 * r.blkX + i % 4 = X at *
  generalize hX' : 4 * r.blkX + j % 4 = X' at *
  have hk : Y * r.W + X = Y' * r.W + X' := by omega
  have hYY : Y = Y' := by
    have e1 : (Y * r.W + X) / r.W = Y := by
      rw [Nat.mul_comm, Nat.mul_add_div (by omega), Nat.div_eq_of_lt hx, Nat.add_zero]
    have e2 : (Y' * r.W + X') / r.W = Y' := by
      rw [Nat.mul_comm, Nat.mul_add_div (by omega), Nat.div_eq_of_lt hx', Nat.add_zero]
    rw [← e1, hk, e2]
  subst hYY
  omega

@[simp] theorem writePixels_nil (r : RasterRegs) (m : Memory) (i : Nat) : writePixels r m i [] = m := rfl

@[simp] theorem writePixels_cons (r : RasterRegs) (m : Memory) (i : Nat) (p : Pixel) (ps : List Pixel) :
    writePixels r m i (p :: ps) = writePixels r (writePixel r m i p) (i + 1) ps := rfl

/-- A byte no pixel covers reads as before. -/
theorem read_writePixels_frame (r : RasterRegs) (m : Memory) (i : Nat) (ps : List Pixel) (a : Nat)
    (h : ∀ j, i ≤ j → j < i + ps.length → ¬ Covers r j a) : (writePixels r m i ps).read a = m.read a := by
  induction ps generalizing m i with
  | nil => rfl
  | cons p ps ih =>
    rw [List.length_cons] at h
    rw [writePixels_cons, ih _ _ fun j h1 h2 => h j (by omega) (by omega), read_writePixel,
      if_neg (h i (Nat.le_refl _) (by omega))]

/-- A byte pixel `j` covers reads as that pixel's byte. -/
theorem read_writePixels_hit (r : RasterRegs) (m : Memory) (i : Nat) (ps : List Pixel) (j a : Nat) (p : Pixel)
    (hj : i ≤ j) (hp : ps[j - i]? = some p) (h : Covers r j a) :
    (writePixels r m i ps).read a =
      (pixelBytes p)[a - pixelAddr r.W (4 * r.blkX + j % 4) (4 * r.blkY + j / 4)]? := by
  induction ps generalizing m i with
  | nil => simp at hp
  | cons q ps ih =>
    rw [writePixels_cons]
    by_cases e : j = i
    · subst e
      rw [Nat.sub_self, List.getElem?_cons_zero] at hp
      cases hp
      rw [read_writePixels_frame r _ _ _ _ fun k h1 h2 hk => by
          have := covers_unique h hk
          omega,
        read_writePixel, if_pos h]
    · have hp' : ps[j - (i + 1)]? = some p := by
        rw [show j - i = (j - (i + 1)) + 1 by omega, List.getElem?_cons_succ] at hp
        exact hp
      exact ih _ _ (by omega) hp'

/-- Writing a block keeps the canonical form. -/
theorem wf_writePixel {m : Memory} (h : m.wf) (r : RasterRegs) (i : Nat) (p : Pixel) : (writePixel r m i p).wf := by
  unfold writePixel
  dsimp only
  split
  · exact Memory.wf_writeList h _ _
  · exact h

theorem wf_writePixels {m : Memory} (h : m.wf) (r : RasterRegs) (i : Nat) (ps : List Pixel) :
    (writePixels r m i ps).wf := by
  induction ps generalizing m i with
  | nil => exact h
  | cons p ps ih => exact ih (wf_writePixel h r i p) (i + 1)

/-- A pixel inside the image lies wholly inside the raster. -/
theorem pixelAddr_lt {W H X Y : Nat} (hX : X < W) (hY : Y < H) : pixelAddr W X Y + 4 ≤ 4 * W * H := by
  have h1 : (Y + 1) * W ≤ H * W := Nat.mul_le_mul_right W hY
  have h2 : 4 * W * H = 4 * (H * W) := by rw [Nat.mul_assoc, Nat.mul_comm W H]
  unfold pixelAddr
  rw [Nat.add_mul] at h1
  omega

/-- Writing a block keeps the bound of OUT when the raster fits it. -/
theorem below_writePixel {m : Memory} {cap : Nat} (h : m.below cap) (r : RasterRegs) (hr : 4 * r.W * r.H ≤ cap)
    (i : Nat) (p : Pixel) : (writePixel r m i p).below cap := by
  unfold writePixel
  dsimp only
  split
  · rename_i hin
    refine Memory.below_writeList h _ ?_
    have := pixelAddr_lt hin.1 hin.2
    rw [pixelBytes_length]
    omega
  · exact h

theorem below_writePixels {m : Memory} {cap : Nat} (h : m.below cap) (r : RasterRegs) (hr : 4 * r.W * r.H ≤ cap)
    (i : Nat) (ps : List Pixel) : (writePixels r m i ps).below cap := by
  induction ps generalizing m i with
  | nil => exact h
  | cons p ps ih => exact ih (below_writePixel h r hr i p) (i + 1)

/-! ## The end of a block -/

theorem rasterFits_iff (s : State) : rasterFits s = true ↔ rasterBytes s ≤ s.cfg.outCapacity := by
  simp [rasterFits]

/-- Everything `nextBlock` can do. -/
theorem nextBlock_cases (s : State) :
    (s.ras.blkX + 1 < s.ras.BW ∧ nextBlock s = { s with ras := { s.ras with blkX := s.ras.blkX + 1 } }) ∨
    (¬ s.ras.blkX + 1 < s.ras.BW ∧ s.ras.blkY + 1 < s.ras.BH ∧
      nextBlock s = { s with ras := { s.ras with blkX := 0, blkY := s.ras.blkY + 1 } }) ∨
    (¬ s.ras.blkX + 1 < s.ras.BW ∧ ¬ s.ras.blkY + 1 < s.ras.BH ∧
      nextBlock s = { s with ras := { s.ras with blkX := 0, blkY := s.ras.blkY + 1 }, phase := .alpha }) := by
  unfold nextBlock
  by_cases h1 : s.ras.blkX + 1 < s.ras.BW
  · exact .inl ⟨h1, if_pos h1⟩
  · by_cases h2 : s.ras.blkY + 1 < s.ras.BH
    · exact .inr (.inl ⟨h1, h2, by rw [if_neg h1, if_pos h2]⟩)
    · exact .inr (.inr ⟨h1, h2, by rw [if_neg h1, if_neg h2]⟩)

/-- A block ends in a next state when the raster fits OUT. -/
theorem finishBlock_of_fits {s : State} (h : rasterBytes s ≤ s.cfg.outCapacity) (px : List Pixel) :
    finishBlock px s = .next (nextBlock (releaseDatapath { s with outMem := writePixels s.ras s.outMem 0 px })) := by
  rw [finishBlock, if_pos ((rasterFits_iff s).2 h)]

/-- A block ends in a fault when the raster does not fit OUT. -/
theorem finishBlock_of_not_fits {s : State} (h : s.cfg.outCapacity < rasterBytes s) (px : List Pixel) :
    finishBlock px s = .fault .rasterOutsideOut := by
  rw [finishBlock, if_neg fun hf => by have := (rasterFits_iff s).1 hf; omega]

/-- Everything the end of a block can do: if it answers a next state, the raster fitted and that state is this one. -/
theorem finishBlock_next {s t : State} {px : List Pixel} (h : finishBlock px s = .next t) :
    rasterBytes s ≤ s.cfg.outCapacity ∧
      t = nextBlock (releaseDatapath { s with outMem := writePixels s.ras s.outMem 0 px }) := by
  by_cases hf : rasterBytes s ≤ s.cfg.outCapacity
  · rw [finishBlock_of_fits hf] at h
    cases h
    exact ⟨hf, rfl⟩
  · rw [finishBlock_of_not_fits (by omega)] at h
    cases h

/-! ## Endings -/

/-- A slice position or size that fits its register is stored exactly. -/
theorem sliceWord_of_lt {unfit : Nat → Word} {v : Nat} (h : v < 2 ^ 32) : (sliceWord unfit v).toNat = v := by
  rw [sliceWord, if_pos h, BitVec.toNat_ofNat, Nat.mod_eq_of_lt h]

/-- Every failure has a failure code. -/
theorem failureResult_ne (f : Failure) :
    failureResult f ≠ .none ∧ failureResult f ≠ .ok ∧ failureResult f ≠ .passThrough := by
  cases f <;> simp [failureResult]

end Sys2Proof.Machine
end

