-- ==== Sys2Proof/Laws/PerInstr.lean ====
section
/-! SUPPORT. Families of statements made instruction by instruction. EncodingLength: the encoding of an instruction is a
CTRL write, or a block of the length its format fixes (30_encoding R108). -/

namespace Sys2Proof.Laws.EncodingLength

open Machine

/-- The encoding is a command, or a block whose bytes are as many as its format's block length. -/
def Statement (i : Instr) : Prop :=
  match encode i with
  | .command _ => ∃ data, i = .decode data
  | .block fmt blk => blockLength fmt = some blk.length

theorem decode (data : BitVec 32) : Statement (.decode data) := ⟨data, rfl⟩

theorem dxt1 (c0 c1 : BitVec 16) (sel : BitVec 32) : Statement (.dxt1 c0 c1 sel) := by
  simp [Statement, encode, blockLength]

theorem dxt3 (alpha : BitVec 64) (c0 c1 : BitVec 16) (sel : BitVec 32) : Statement (.dxt3 alpha c0 c1 sel) := by
  simp [Statement, encode, blockLength]

theorem dxt5 (a0 a1 : BitVec 8) (asel : BitVec 48) (c0 c1 : BitVec 16) (sel : BitVec 32) :
    Statement (.dxt5 a0 a1 asel c0 c1 sel) := by
  simp [Statement, encode, blockLength]

theorem bc7Mode0 (shape : BitVec 4) (r g b : BitVec 24) (p : BitVec 6) (i1 : BitVec 45) :
    Statement (.bc7Mode0 shape r g b p i1) := by
  simp [Statement, encode, blockLength, bc7Bytes]

theorem bc7Mode1 (shape : BitVec 6) (r g b : BitVec 24) (p : BitVec 2) (i1 : BitVec 46) :
    Statement (.bc7Mode1 shape r g b p i1) := by
  simp [Statement, encode, blockLength, bc7Bytes]

theorem bc7Mode2 (shape : BitVec 6) (r g b : BitVec 30) (i1 : BitVec 29) :
    Statement (.bc7Mode2 shape r g b i1) := by
  simp [Statement, encode, blockLength, bc7Bytes]

theorem bc7Mode3 (shape : BitVec 6) (r g b : BitVec 28) (p : BitVec 4) (i1 : BitVec 30) :
    Statement (.bc7Mode3 shape r g b p i1) := by
  simp [Statement, encode, blockLength, bc7Bytes]

theorem bc7Mode4 (rot : BitVec 2) (isel : BitVec 1) (r g b : BitVec 10) (a : BitVec 12) (i1 : BitVec 31)
    (i2 : BitVec 47) : Statement (.bc7Mode4 rot isel r g b a i1 i2) := by
  simp [Statement, encode, blockLength, bc7Bytes]

theorem bc7Mode5 (rot : BitVec 2) (r g b : BitVec 14) (a : BitVec 16) (i1 i2 : BitVec 31) :
    Statement (.bc7Mode5 rot r g b a i1 i2) := by
  simp [Statement, encode, blockLength, bc7Bytes]

theorem bc7Mode6 (r g b a : BitVec 14) (p : BitVec 2) (i1 : BitVec 63) :
    Statement (.bc7Mode6 r g b a p i1) := by
  simp [Statement, encode, blockLength, bc7Bytes]

theorem bc7Mode7 (shape : BitVec 6) (r g b a : BitVec 20) (p : BitVec 4) (i1 : BitVec 30) :
    Statement (.bc7Mode7 shape r g b a p i1) := by
  simp [Statement, encode, blockLength, bc7Bytes]

theorem bc7Reserved (rest : BitVec 120) : Statement (.bc7Reserved rest) := by
  simp [Statement, encode, blockLength, bc7Bytes]

end Sys2Proof.Laws.EncodingLength
end

