-- ==== Sys2Proof/Laws/Raster.lean ====
section
/-! SUPPORT. What the phases ALLOC, DECODE, ALPHA and FINISH can do, each said once. -/

namespace Sys2Proof.Machine

/-- Everything ALLOC can do in its phase. -/
theorem allocPhase_cases {s : State} (h : s.phase = .alloc) :
    (rasterBytes s ≤ s.cfg.outCapacity ∧ allocPhase s =
      { s with
        ras := { s.ras with BW := blocksAlong s.ras.W, BH := blocksAlong s.ras.H, blkX := 0, blkY := 0 }
        phase := .decode }) ∨
    (s.cfg.outCapacity < rasterBytes s ∧ allocPhase s = raiseFail .capacity s) := by
  rw [allocPhase, if_pos h]
  by_cases hf : rasterBytes s ≤ s.cfg.outCapacity
  · exact .inl ⟨hf, by rw [if_pos ((rasterFits_iff s).2 hf)]⟩
  · exact .inr ⟨by omega, by rw [if_neg fun hc => hf ((rasterFits_iff s).1 hc)]⟩

theorem allocPhase_of_ne {s : State} (h : s.phase ≠ .alloc) : allocPhase s = s := if_neg h

/-- The block dispatch is exec's: a block instruction runs the same meaning under both. -/
theorem execBlock_decode (data : BitVec 32) (s : State) : execBlock (.decode data) s = .fault .noBlockDecoder := rfl

/-- When the fetch gives an instruction: the block lies in the stream and decodes to it. -/
theorem fetchBlock_eq_ok {s : State} {i : Instr} :
    fetchBlock s = .ok i ↔
      blockAddr s + s.loc.bs ≤ streamLength s ∧
        decode (.block s.loc.fmt (inBytes s (blockAddr s) s.loc.bs)) = .ok i := by
  unfold fetchBlock
  split
  · rename_i h
    simp only [reduceCtorEq, false_iff]
    rintro ⟨h', -⟩
    omega
  · rename_i h
    cases hd : decode (.block s.loc.fmt (inBytes s (blockAddr s) s.loc.bs)) with
    | error e => simp
    | ok j => simp; omega

/-- One block and the rest: the loop unfolds while the phase is DECODE. -/
theorem runBlocks_succ_next {n : Nat} {s t : State} (hp : s.phase = .decode) (h : blockStep s = .next t) :
    runBlocks (n + 1) s = runBlocks n t := by
  rw [runBlocks, if_pos hp, h]

/-- The loop ends where the phase is not DECODE. -/
theorem runBlocks_of_ne {n : Nat} {s : State} (hp : s.phase ≠ .decode) : runBlocks n s = .next s := by
  cases n with
  | zero => rfl
  | succ n => rw [runBlocks, if_neg hp]

/-! ## ALPHA -/

@[simp] theorem forceAlpha_zero (m : Memory) : forceAlpha 0 m = m := rfl

/-- What a read sees after ALPHA: 255 in the alpha bytes of the first `n` pixels, every other byte as it was. -/
theorem read_forceAlpha (n : Nat) (m : Memory) (a : Nat) :
    (forceAlpha n m).read a = if a % 4 = 3 ∧ a / 4 < n then some 255 else m.read a := by
  induction n with
  | zero => simp
  | succ n ih =>
    rw [forceAlpha, Memory.read_write, ih]
    by_cases h1 : a = 4 * n + 3
    · rw [if_pos h1, if_pos (by omega)]
    · rw [if_neg h1]
      by_cases h2 : a % 4 = 3 ∧ a / 4 < n
      · rw [if_pos h2, if_pos ⟨h2.1, by omega⟩]
      · rw [if_neg h2, if_neg (by omega)]

theorem wf_forceAlpha {m : Memory} (h : m.wf) (n : Nat) : (forceAlpha n m).wf := by
  induction n with
  | zero => exact h
  | succ n ih => exact Memory.wf_write ih _ _

theorem below_forceAlpha {m : Memory} {cap : Nat} (h : m.below cap) {n : Nat} (hn : 4 * n ≤ cap) :
    (forceAlpha n m).below cap := by
  induction n with
  | zero => exact h
  | succ n ih => exact Memory.below_write (ih (by omega)) _ (by omega)

/-- Everything ALPHA can do in its phase. -/
theorem alphaPhase_cases {s : State} (h : s.phase = .alpha) :
    (ignoreAlpha s = false ∧ alphaPhase s = .next { s with phase := .finish }) ∨
    (ignoreAlpha s = true ∧ rasterBytes s ≤ s.cfg.outCapacity ∧
      alphaPhase s = .next { s with outMem := forceAlpha (s.ras.W * s.ras.H) s.outMem, phase := .finish }) ∨
    (ignoreAlpha s = true ∧ s.cfg.outCapacity < rasterBytes s ∧ alphaPhase s = .fault .rasterOutsideOut) := by
  rw [alphaPhase, if_pos h]
  cases hi : ignoreAlpha s with
  | false => exact .inl ⟨rfl, rfl⟩
  | true =>
    by_cases hf : rasterBytes s ≤ s.cfg.outCapacity
    · exact .inr (.inl ⟨rfl, hf, by simp [(rasterFits_iff s).2 hf]⟩)
    · refine .inr (.inr ⟨rfl, by omega, ?_⟩)
      have : rasterFits s = false := by
        cases hc : rasterFits s
        · rfl
        · exact absurd ((rasterFits_iff s).1 hc) hf
      simp [this]

theorem alphaPhase_of_ne {s : State} (h : s.phase ≠ .alpha) : alphaPhase s = .next s := if_neg h

theorem finishPhase_of_eq {s : State} (h : s.phase = .finish) : finishPhase s = completeOk s := if_pos h

theorem finishPhase_of_ne {s : State} (h : s.phase ≠ .finish) : finishPhase s = s := if_neg h

/-- Everything the DECODE command can do at its issue. -/
theorem execDecode_cases (data : BitVec 32) (s : State) :
    ((data.getLsbD 0 = false ∨ s.status.busy = true) ∧ execDecode data s = .next s) ∨
    (data.getLsbD 0 = true ∧ s.status.busy = false ∧ actsDuring s = true ∧ execDecode data s = .next (startDecode s)) ∨
    (data.getLsbD 0 = true ∧ s.status.busy = false ∧ actsDuring s = false ∧
      execDecode data s = runDecode (startDecode s)) := by
  unfold execDecode
  cases hd : data.getLsbD 0 <;> cases hb : s.status.busy <;> cases ha : actsDuring s <;> simp

end Sys2Proof.Machine
end

