-- ==== Sys2Proof/Laws/Step.lean ====
section
/-! SUPPORT. Who moves next, said once per case of the outside world's turns, and what the ENGINE's next step is in each
phase. -/

namespace Sys2Proof.Machine

theorem nextMove_of_nil {s : State} (h : s.turns = []) : nextMove s = engineMove s := by rw [nextMove, h]

theorem nextMove_of_ticks_zero {s : State} {rest : List Turn} (h : s.turns = .ticks 0 :: rest) :
    nextMove s = .moved { s with turns := rest } := by rw [nextMove, h]

theorem nextMove_of_ticks_succ {s : State} {n : Nat} {rest : List Turn} (h : s.turns = .ticks (n + 1) :: rest) :
    nextMove s = engineMove { s with turns := .ticks n :: rest } := by rw [nextMove, h]

theorem nextMove_of_rst {s : State} {rest : List Turn} (h : s.turns = .rst :: rest) :
    nextMove s = .moved (applyReset { s with turns := rest }) := by rw [nextMove, h]

theorem nextMove_of_access {s : State} {a : HostAccess} {rest : List Turn} (h : s.turns = .access a :: rest)
    (hc : commandOf a = none) : nextMove s = .moved (hostAccess a { s with turns := rest }) := by
  simp only [nextMove, h, hc]

theorem nextMove_of_command {s : State} {a : HostAccess} {i : Instr} {rest : List Turn}
    (h : s.turns = .access a :: rest) (hc : commandOf a = some i) :
    nextMove s = .run i { s with turns := rest } := by
  simp only [nextMove, h, hc]

theorem step_of_moved {s t : State} (h : nextMove s = .moved t) : step s = .next t := by rw [step, h]

theorem step_of_run {s t : State} {i : Instr} (h : nextMove s = .run i t) : step s = exec i t := by rw [step, h]

/-- Every step is a turn's own move, an ENGINE step, or an instruction: nothing else answers a next state. -/
theorem step_next_cases {s t : State} (h : step s = .next t) :
    nextMove s = .moved t ∨ ∃ i u, nextMove s = .run i u ∧ exec i u = .next t := by
  unfold step at h
  split at h
  · exact .inr ⟨_, _, by assumption, h⟩
  · cases h
    exact .inl (by assumption)
  · cases h

theorem engineMove_idle {s : State} (h : s.phase = .idle) : engineMove s = .moved s := by rw [engineMove, h]

theorem engineMove_parse {s : State} (h : s.phase = .parse) : engineMove s = .moved (parsePhase s) := by
  rw [engineMove, h]

theorem engineMove_resolve {s : State} (h : s.phase = .resolve) : engineMove s = .moved (resolvePhase s) := by
  rw [engineMove, h]

theorem engineMove_locate {s : State} (h : s.phase = .locate) : engineMove s = .moved (locatePhase s) := by
  rw [engineMove, h]

theorem engineMove_alloc {s : State} (h : s.phase = .alloc) : engineMove s = .moved (allocPhase s) := by
  rw [engineMove, h]

theorem engineMove_decode {s : State} {i : Instr} (h : s.phase = .decode) (hf : fetchBlock s = .ok i) :
    engineMove s = .run i s := by simp only [engineMove, h, hf]

theorem engineMove_decode_stop {s : State} {f : Fault} (h : s.phase = .decode) (hf : fetchBlock s = .error f) :
    engineMove s = .stop f := by simp only [engineMove, h, hf]

theorem engineMove_alpha {s t : State} (h : s.phase = .alpha) (ha : alphaPhase s = .next t) :
    engineMove s = .moved t := by simp only [engineMove, h, ha]

theorem engineMove_finish {s : State} (h : s.phase = .finish) : engineMove s = .moved (finishPhase s) := by
  rw [engineMove, h]

/-- A host access is a command exactly when it is a 32-bit write to CTRL that decodes. -/
theorem commandOf_ctrl (v : Word) : commandOf (.regWrite .word 0 v) = if v.getLsbD 0 then some (.decode v) else none := by
  simp only [commandOf, decode, decodeCommand]
  split <;> rfl

end Sys2Proof.Machine
end

