-- ==== Sys2Proof/Tests/Slice0.lean ====
section
/-! SUPPORT. Tests. Expected values come from the spec: the vectors of 95_test_vectors (named V-…), its programs, or words
written out by hand from the layout rules of 30_encoding. Each runs one step or one decode. -/

namespace Sys2Proof.Tests

open Machine

-- one proof at a time: each waits for the kernel, and many waiting at once each hold a thread's stack
set_option Elab.async false

/-! ## Small states -/

/-- Parameters with concrete capacities. -/
def testCfg : Params := ⟨4096, 4096, faceGapBytes, defaultBppTable, defaultFourccUnsupported⟩

/-- The reset state with those parameters. -/
def idle : State := { State.reset with cfg := testCfg }

/-- At block 0 of a 4 × 4 raster, in phase DECODE. -/
def atBlock : State :=
  { idle with
    status := { busy := true, done := false, rasterValid := false, ptValid := false, result := .none }
    phase := .decode
    ras := ⟨4, 4, 1, 1, 0, 0⟩ }

/-- Bytes as cells from an address on. -/
def listed : Nat → List Byte → Memory
  | _, [] => []
  | k, b :: bs => (k, b) :: listed (k + 1) bs

/-- A core whose IN holds a stream. -/
def load (bs : List Byte) : State := { idle with inMem := listed 0 bs, inLen := BitVec.ofNat 32 bs.length }

/-- A 128-byte primary header (30_encoding R81, R82). -/
def header (w h mips pff fcc rgbBits caps2 : Nat) : List Byte :=
  ([0x20534444, 124, 0x1007, h, w, 0, 0, mips] ++ List.replicate 11 0 ++
    [32, pff, fcc, rgbBits, 0, 0, 0, 0, 0x1000, caps2, 0, 0, 0]).flatMap (leBytes 4)

/-- A test of the next state, false where there is none. -/
def nextIs (o : Host.Outcome State Fault Refusal) (p : State → Bool) : Bool :=
  match o with
  | .next t => p t
  | .fault _ => false
  | .refused _ => false

/-- The 16 pixels of a 4 × 4 raster as words, red lowest; none where there is no next state. -/
def raster (o : Host.Outcome State Fault Refusal) : List Nat :=
  match o with
  | .next t => (List.range 16).map fun p => leNat ((List.range 4).map fun c => (t.outMem.read (4 * p + c)).getD 0)
  | .fault _ => []
  | .refused _ => []

/-! ## Well-formedness -/

/-- A CTRL write without START is no DECODE (30_encoding R114): the check refuses it. -/
theorem test_wellFormed_refuses_start_clear : (Instr.decode 0xFFFFFFFE).wellFormed = false := by decide

theorem test_wellFormed_accepts_start_set : (Instr.decode 0xFFFFFFFF).wellFormed = true := by decide

/-! ## Decoding words written out from the layouts -/

theorem test_decode_command : decode (.command 1) = .ok (.decode 1) := by decide

theorem test_decode_command_refused : decode (.command 2) = .error .startClear := by decide

theorem test_decode_no_decoder : decode (.block .uncompressed []) = .error .noBlockDecoder := by decide

theorem test_decode_wrong_length : decode (.block .dxt5 [0]) = .error .wrongLength := by decide

/-- V-D1.1: `DXT1 c0=F800 c1=001F sel=E4E4E4E4`. -/
theorem test_decode_dxt1 :
    decode (.block .dxt1 [0x00, 0xF8, 0x1F, 0x00, 0xE4, 0xE4, 0xE4, 0xE4]) = .ok (.dxt1 0xF800 0x001F 0xE4E4E4E4) := by
  decide +kernel

/-- V-D3.1: `DXT3 alpha=FEDCBA9876543210 c0=F800 c1=001F sel=00000000`. -/
theorem test_decode_dxt3 :
    decode (.block .dxt3 [0x10, 0x32, 0x54, 0x76, 0x98, 0xBA, 0xDC, 0xFE, 0x00, 0xF8, 0x1F, 0x00, 0, 0, 0, 0])
      = .ok (.dxt3 0xFEDCBA9876543210 0xF800 0x001F 0) := by decide +kernel

/-- V-D5.1: `DXT5 a0=255 a1=0 asel=FAC688FAC688 c0=FFFF c1=0000 sel=E4E4E4E4`. -/
theorem test_decode_dxt5 :
    decode (.block .dxt5 [0xFF, 0x00, 0x88, 0xC6, 0xFA, 0x88, 0xC6, 0xFA, 0xFF, 0xFF, 0, 0, 0xE4, 0xE4, 0xE4, 0xE4])
      = .ok (.dxt5 0xFF 0x00 0xFAC688FAC688 0xFFFF 0x0000 0xE4E4E4E4) := by decide +kernel

/-- A zero low byte is the reserved mode whatever follows (30_encoding R96, R109). -/
theorem test_decode_bc7Reserved :
    decode (.block .bc7 [0, 0xEF, 0xBE, 0, 0, 0, 0, 0, 0, 0, 0, 0, 0, 0, 0, 0x80])
      = .ok (.bc7Reserved 0x80000000000000000000000000BEEF) := by decide +kernel

/-! One word for each BC7 mode, a value with its lowest bit set at every bit range of 30_encoding R99 to R106. -/

theorem test_decode_bc7Mode0 :
    decode (.block .bc7 [0xAB, 0xE9, 0x54, 0xBE, 0xC1, 0xD3, 0xE4, 0x64, 0xA2, 0x2C, 0x8D, 0xFE, 0xE3, 0x62, 0x88,
      0x12]) = .ok (.bc7Mode0 0x5 0xF2A74D 0x269E0D 0x651327 0x29 0x2510C5C7FD1) := by decide +kernel

theorem test_decode_bc7Mode1 :
    decode (.block .bc7 [0xD6, 0x91, 0x2F, 0x89, 0xE9, 0x18, 0x18, 0xC9, 0x9D, 0x5D, 0xD7, 0x11, 0x64, 0x3B, 0xE0,
      0xE8]) = .ok (.bc7Mode1 0x35 0x892F91 0x1818E9 0x5D9DC9 0x3 0x3A380ED90475) := by decide +kernel

theorem test_decode_bc7Mode2 :
    decode (.block .bc7 [0x0C, 0xE7, 0x3A, 0x7B, 0x9B, 0x1B, 0x2A, 0x33, 0xE1, 0x1A, 0x05, 0xB0, 0x58, 0x67, 0x03,
      0x6F]) = .ok (.bc7Mode2 0x21 0xDBD9D73 0x2665437 0x58028D7 0xDE06CEB) := by decide +kernel

theorem test_decode_bc7Mode3 :
    decode (.block .bc7 [0xB8, 0xE5, 0x82, 0x78, 0xC4, 0x5C, 0x70, 0xF6, 0xF4, 0x3D, 0xCE, 0x45, 0x26, 0x4A, 0xAD,
      0x6C]) = .ok (.bc7Mode3 0x1B 0x11E20B9 0x3D9C173 0x1738F7D 0x9 0x1B2B5289) := by decide +kernel

theorem test_decode_bc7Mode4 :
    decode (.block .bc7 [0xB0, 0x43, 0xFE, 0xB1, 0xFC, 0xE4, 0x74, 0x66, 0xE1, 0x42, 0x6B, 0xED, 0x3E, 0x41, 0x3F,
      0x95]) = .ok (.bc7Mode4 0x1 0x1 0x243 0x7F 0x3CB 0x393 0x50B8599D 0x4A9FA09F76B5) := by decide +kernel

theorem test_decode_bc7Mode5 :
    decode (.block .bc7 [0xE0, 0xF5, 0xC3, 0x3B, 0x99, 0x57, 0x36, 0x96, 0x3D, 0xC5, 0x63, 0x19, 0xCE, 0xDA, 0xEB,
      0xF9]) = .ok (.bc7Mode5 0x3 0x3F5 0x24EF 0x2579 0x658D 0x658F14F 0x7CF5ED67) := by decide +kernel

theorem test_decode_bc7Mode6 :
    decode (.block .bc7 [0xC0, 0x13, 0x67, 0x5F, 0x08, 0x1D, 0xE3, 0xED, 0x2E, 0xAB, 0x47, 0x94, 0x42, 0xB2, 0x4C,
      0x6B]) = .ok (.bc7Mode6 0xE27 0x2FB 0x23A1 0x36F1 0x1 0x35A659214A23D597) := by decide +kernel

theorem test_decode_bc7Mode7 :
    decode (.block .bc7 [0x80, 0xC9, 0xA9, 0x29, 0xEE, 0x89, 0xC7, 0x9D, 0x48, 0x2E, 0xBE, 0x53, 0x2E, 0xA8, 0xED,
      0xD0]) = .ok (.bc7Mode7 0x9 0x8A6A7 0x1E27B 0x92277 0x4EF8B 0x9 0x343B6A0B) := by decide +kernel

/-! ## Blocks -/

/-- V-B0 (42_bc7 R200). -/
theorem test_run_bc7Mode0 :
    raster (exec (.bc7Mode0 0x1 0xF0F0F0 0xF0F0F0 0xF0F0F0 0x3F 0x1F58D13EB344) atBlock) = [0xFF080808, 0xFF2B2B2B,
      0xFF4D4D4D, 0xFF707070, 0xFF979797, 0xFFBABABA, 0xFFDCDCDC, 0xFFFFFFFF, 0xFF080808, 0xFF2B2B2B, 0xFF4D4D4D,
      0xFF707070, 0xFF979797, 0xFFBABABA, 0xFFDCDCDC, 0xFFFFFFFF] := by decide +kernel

/-- V-B1 (42_bc7 R201). -/
theorem test_run_bc7Mode1 :
    raster (exec (.bc7Mode1 0x1 0xFC0FC0 0xFC0FC0 0xFC0FC0 0x3 0x3D63447D6344) atBlock) = [0xFF020202, 0xFF262626,
      0xFF494949, 0xFF6D6D6D, 0xFF949494, 0xFFB8B8B8, 0xFFDBDBDB, 0xFFFFFFFF, 0xFF020202, 0xFF262626, 0xFF494949,
      0xFF6D6D6D, 0xFF949494, 0xFFB8B8B8, 0xFFDBDBDB, 0xFF6D6D6D] := by decide +kernel

/-- V-B2 (42_bc7 R202). -/
theorem test_run_bc7Mode2 :
    raster (exec (.bc7Mode2 0x1 0x3E0F83E0 0x3E0F83E0 0x3E0F83E0 0x1C9CB932) atBlock) = [0xFF000000, 0xFF545454,
      0xFFABABAB, 0xFF545454, 0xFF000000, 0xFF545454, 0xFFABABAB, 0xFFFFFFFF, 0xFF000000, 0xFF545454, 0xFFABABAB,
      0xFFFFFFFF, 0xFF000000, 0xFF545454, 0xFFABABAB, 0xFFFFFFFF] := by decide +kernel

/-- V-B3 (42_bc7 R203). -/
theorem test_run_bc7Mode3 :
    raster (exec (.bc7Mode3 0x1 0xFE03F80 0xFE03F80 0xFE03F80 0xF 0x32727272) atBlock) = [0xFF010101, 0xFF545454,
      0xFFACACAC, 0xFFFFFFFF, 0xFF010101, 0xFF545454, 0xFFACACAC, 0xFFFFFFFF, 0xFF010101, 0xFF545454, 0xFFACACAC,
      0xFFFFFFFF, 0xFF010101, 0xFF545454, 0xFFACACAC, 0xFF545454] := by decide +kernel

/-- V-B4 (42_bc7 R204). -/
theorem test_run_bc7Mode4 :
    raster (exec (.bc7Mode4 0x0 0x0 0x3E0 0x3E0 0x3E0 0xFC0 0x72727272 0x7D63447D6344) atBlock) = [0x00000000,
      0x24545454, 0x48ABABAB, 0x6CFFFFFF, 0x93000000, 0xB7545454, 0xDBABABAB, 0xFFFFFFFF, 0x00000000, 0x24545454,
      0x48ABABAB, 0x6CFFFFFF, 0x93000000, 0xB7545454, 0xDBABABAB, 0xFFFFFFFF] := by decide +kernel

/-- V-B5 (42_bc7 R205). -/
theorem test_run_bc7Mode5 :
    raster (exec (.bc7Mode5 0x0 0x3F80 0x3F80 0x3F80 0xFF00 0x72727272 0x72727272) atBlock) = [0x00000000,
      0x54545454, 0xABABABAB, 0xFFFFFFFF, 0x00000000, 0x54545454, 0xABABABAB, 0xFFFFFFFF, 0x00000000, 0x54545454,
      0xABABABAB, 0xFFFFFFFF, 0x00000000, 0x54545454, 0xABABABAB, 0xFFFFFFFF] := by decide +kernel

/-- V-B6 (42_bc7 R206). -/
theorem test_run_bc7Mode6 :
    raster (exec (.bc7Mode6 0x3F80 0x3F80 0x3F80 0x3F80 0x3 0x7F6E5D4C3B2A1908) atBlock) = [0x01010101, 0x11111111,
      0x25252525, 0x35353535, 0x44444444, 0x54545454, 0x68686868, 0x78787878, 0x88888888, 0x98989898, 0xACACACAC,
      0xBCBCBCBC, 0xCBCBCBCB, 0xDBDBDBDB, 0xEFEFEFEF, 0xFFFFFFFF] := by decide +kernel

/-- V-B7 (42_bc7 R207). -/
theorem test_run_bc7Mode7 :
    raster (exec (.bc7Mode7 0x1 0xF83E0 0xF83E0 0xF83E0 0xF83E0 0xF 0x32727272) atBlock) = [0x04040404, 0x56565656,
      0xADADADAD, 0xFFFFFFFF, 0x04040404, 0x56565656, 0xADADADAD, 0xFFFFFFFF, 0x04040404, 0x56565656, 0xADADADAD,
      0xFFFFFFFF, 0x04040404, 0x56565656, 0xADADADAD, 0x56565656] := by decide +kernel

/-- V-D1.1 (41_dxt R155, R157). -/
theorem test_run_dxt1_opaque :
    raster (exec (.dxt1 0xF800 0x001F 0xE4E4E4E4) atBlock) = [0xFF0000FF, 0xFFFF0000, 0xFF5500AA, 0xFFAA0055,
      0xFF0000FF, 0xFFFF0000, 0xFF5500AA, 0xFFAA0055, 0xFF0000FF, 0xFFFF0000, 0xFF5500AA, 0xFFAA0055, 0xFF0000FF,
      0xFFFF0000, 0xFF5500AA, 0xFFAA0055] := by decide +kernel

/-- V-D1.2 (41_dxt R155, R157). -/
theorem test_run_dxt1_punch_through :
    raster (exec (.dxt1 0x001F 0xF800 0xE4E4E4E4) atBlock) = [0xFFFF0000, 0xFF0000FF, 0xFF7F007F, 0x00000000,
      0xFFFF0000, 0xFF0000FF, 0xFF7F007F, 0x00000000, 0xFFFF0000, 0xFF0000FF, 0xFF7F007F, 0x00000000, 0xFFFF0000,
      0xFF0000FF, 0xFF7F007F, 0x00000000] := by decide +kernel

/-- V-D3.1 (41_dxt R158, R159). -/
theorem test_run_dxt3 :
    raster (exec (.dxt3 0xFEDCBA9876543210 0xF800 0x001F 0x00000000) atBlock) = [0x000000FF, 0x110000FF, 0x220000FF,
      0x330000FF, 0x440000FF, 0x550000FF, 0x660000FF, 0x770000FF, 0x880000FF, 0x990000FF, 0xAA0000FF, 0xBB0000FF,
      0xCC0000FF, 0xDD0000FF, 0xEE0000FF, 0xFF0000FF] := by decide +kernel

/-- V-D3.2 (41_dxt R159). -/
theorem test_run_dxt3_never_transparent :
    raster (exec (.dxt3 0 0 0xFFFF 0xFFFFFFFF) atBlock) = [0x00AAAAAA, 0x00AAAAAA, 0x00AAAAAA, 0x00AAAAAA,
      0x00AAAAAA, 0x00AAAAAA, 0x00AAAAAA, 0x00AAAAAA, 0x00AAAAAA, 0x00AAAAAA, 0x00AAAAAA, 0x00AAAAAA, 0x00AAAAAA,
      0x00AAAAAA, 0x00AAAAAA, 0x00AAAAAA] := by decide +kernel

/-- V-D5.1 (41_dxt R160, R161). -/
theorem test_run_dxt5_seven_steps :
    raster (exec (.dxt5 255 0 0xFAC688FAC688 0xFFFF 0x0000 0xE4E4E4E4) atBlock) = [0xFFFFFFFF, 0x00000000,
      0xDAAAAAAA, 0xB6555555, 0x91FFFFFF, 0x6D000000, 0x48AAAAAA, 0x24555555, 0xFFFFFFFF, 0x00000000, 0xDAAAAAAA,
      0xB6555555, 0x91FFFFFF, 0x6D000000, 0x48AAAAAA, 0x24555555] := by decide +kernel

/-- V-D5.2 (41_dxt R160, R161). -/
theorem test_run_dxt5_five_steps :
    raster (exec (.dxt5 0 255 0xFAC688FAC688 0x001F 0xF800 0xFFFFFFFF) atBlock) = [0x005500AA, 0xFF5500AA,
      0x335500AA, 0x665500AA, 0x995500AA, 0xCC5500AA, 0x005500AA, 0xFF5500AA, 0x005500AA, 0xFF5500AA, 0x335500AA,
      0x665500AA, 0x995500AA, 0xCC5500AA, 0x005500AA, 0xFF5500AA] := by decide +kernel

/-- V-BM8: the all-zero block ends the DECODE (42_bc7 R208). -/
theorem test_run_bc7Reserved :
    nextIs (exec (.bc7Reserved 0) { atBlock with ras := ⟨12, 8, 3, 2, 2, 1⟩ }) (fun t =>
      t.errInfo == 0x0883 && t.errBlock == 5 && (statusWord t.status).toNat == 0x302) = true := by decide +kernel

/-- V-BR1, pixel 0: rotation swaps red and alpha (42_bc7 R195). -/
theorem test_run_bc7Mode5_rotated :
    (raster (step { load [0x60, 0x0A, 0x3C, 0x8F, 0x42, 0x36, 0x22, 0xA3, 0xC8, 0xC9, 0xC9, 0xC9, 0x1B, 0x1B, 0x1B, 0x1B] with
      phase := .decode, ras := ⟨4, 4, 1, 1, 0, 0⟩, loc := { idle.loc with fmt := .bc7, bs := 16 } })).head?
      = some 0x14C97894 := by decide +kernel

/-! ## DECODE -/

/-- Program 1 (95_test_vectors 3.1, E6): one white DXT1 block. -/
def white : State := load (header 4 4 1 4 0x31545844 0 0 ++ [0xFF, 0xFF, 0, 0, 0, 0, 0, 0])

theorem test_run_decode_white :
    nextIs (exec (.decode 1) white) (fun t =>
      (statusWord t.status).toNat == 0x106 && t.outWidth == 4 && t.outHeight == 4 && t.outFormat == 1 &&
      t.sliceOffset == 128 && t.sliceSize == 8) = true := by decide +kernel

/-- V-C3: a wrong magic with `N = 4` (40_container R120). -/
theorem test_run_decode_bad_magic :
    nextIs (exec (.decode 1) (load [0x44, 0x44, 0x53, 0x21])) (fun t =>
      (statusWord t.status).toNat == 0x302 && t.errInfo == 0x00F1) = true := by decide +kernel

/-! ## The host's side -/

/-- A 16-bit write to IN is little-endian (20_memory R61). -/
theorem test_in_write_little_endian :
    (hostAccess (.inWrite .half 2 0xABCD) idle).inMem = [(2, 0xCD), (3, 0xAB)] := by decide +kernel

/-- IN_LEN stores at most IN_CAPACITY (10_state R28). -/
theorem test_in_len_is_capped : (hostAccess (.regWrite .word 0x08 0xFFFFFFFF) idle).inLen = 4096 := by decide +kernel

/-- Writes while BUSY are lost (10_state R36). -/
theorem test_busy_write_is_lost : hostAccess (.inWrite .byte 0 1) atBlock = atBlock := by decide +kernel

/-- A table word placed after reset is the first instruction run. -/
theorem test_withFetchWord_runs_decode :
    nextIs (step (State.reset.withFetchWord 32 1)) (fun t => t.errInfo == 0x00F2) = true := by decide +kernel

theorem test_withFetchWord_runs_bc7Mode3 :
    nextIs (step (State.reset.withFetchWord 8 8)) (fun t => t.outMem.read 3 == some 255 && t.phase == .alpha) = true := by
  decide +kernel

end Sys2Proof.Tests
end

