-- ==== Sys2Proof/Tests/Witnesses.lean ====
section
/-! SUPPORT. For every statement that has hypotheses, a concrete state and operands that meet them all together; where a
statement has several clauses, one for each, at a boundary value. -/

namespace Sys2Proof.Tests

open Machine

-- one proof at a time: each waits for the kernel, and many waiting at once each hold a thread's stack
set_option Elab.async false

/-- From a test of the next state to the next state itself. -/
theorem exists_next {o : Host.Outcome State Fault Refusal} {p : State → Bool} (h : nextIs o p = true) :
    ∃ t, o = .next t ∧ p t = true := by
  cases o with
  | next t => exact ⟨t, rfl, h⟩
  | fault f => cases h
  | refused r => cases h

/-! ## More small states -/

/-- The core with one coming turn of the outside world. -/
def coming (a : Turn) (s : State) : State := { s with turns := [a] }

/-- A raster that fills OUT exactly. -/
def fullOut : State := { atBlock with cfg := { testCfg with outCapacity := 64 } }

/-- A raster one byte larger than OUT. -/
def overOut : State := { atBlock with cfg := { testCfg with outCapacity := 63 } }

/-- A started DECODE whose stream is one DXT1 block, in phase DECODE. -/
def decoding : State :=
  { atBlock with
    inLen := 8
    inMem := listed 0 [1, 0, 2, 0, 3, 0, 0, 0]
    sliceSize := 8
    loc := { idle.loc with fmt := .dxt1, bs := 8 } }

/-- The white image of program 1 with its last byte cut off, in an OUT too small for it, and in the reserved BC7 mode. -/
def short : State := { white with inLen := 135 }
def tight : State := { white with cfg := { testCfg with outCapacity := 63 } }
def reserved : State :=
  load (header 4 4 1 4 0x30315844 0 0 ++ [98, 0, 0, 0] ++ List.replicate 16 0 ++ List.replicate 16 0)
/-- Requests of a DXT1 level of 2^32 - 8 bytes, the largest that fits SLICE_SIZE, and of 2^32 bytes, the least that does
not, in a stream that holds neither. -/
def largestSlice : State := load (header 0x7FFFFFFC 4 1 4 0x31545844 0 0)
def unfitSlice : State := load (header 0x20000 0x10000 1 4 0x31545844 0 0)

def unknown : State := load (header 4 4 1 4 0x57585A59 0 0)
def packed : State := load (header 4 4 1 0x41 0 32 0)

/-! ## Encoding -/

theorem witness_DecodeOfEncodeIsIdentity :
    (Instr.decode 1).wellFormed = true ∧ (Instr.bc7Reserved 0).wellFormed = true := by decide

theorem witness_EncodeOfDecodeIsIdentity :
    decode (.command 3) = .ok (.decode 3) ∧ decode (.block .dxt1 [1, 0, 2, 0, 3, 0, 0, 0]) = .ok (.dxt1 1 2 3) := by
  decide +kernel

/-- Both lengths, and the low bytes 0x80 (mode 7, the last), 0x01 (mode 0, the first) and 0. -/
theorem witness_DecodeKeySelectsOneRule :
    (leBytes 8 0).length = 8 ∧ (leBytes 16 0x80).length = 16 ∧
    (∀ j, j < 7 → ((leBytes 16 0x80).getD 0 0).getLsbD j = false) ∧ ((leBytes 16 0x80).getD 0 0).getLsbD 7 = true ∧
    ((leBytes 16 0x01).getD 0 0).getLsbD 0 = true ∧ (leBytes 16 0x100).getD 0 0 = 0 := by decide

theorem witness_ControlWriteIsTheOnlyCommand :
    (1 : Word).getLsbD 0 = true ∧ (0xFFFFFFFF : Word).getLsbD 0 = true ∧
    commandOf (.regWrite .word 0 1) = some (.decode 1) := by decide

theorem witness_Bc7Fields : 0 < 8 ∧ 7 < 8 ∧ (leBytes 16 0x80).length = 16 ∧
    (5 < 2 * (modeRow 0).ns ∧ 5 < (modeRow 0).np) ∧ (modeRow 4).ib2 ≠ 0 := by decide

theorem witness_Bc7BitBudgetIsExact :
    ∃ t, exec (.bc7Mode7 63 0 0 0 0 0 0) atBlock = .next t ∧ (t.phase == .alpha) = true :=
  exists_next (by decide +kernel)

/-- Shape 63 of mode 7 has the anchors 0 and 15. -/
theorem witness_Bc7AnchorIndexTopBitIsZero :
    (loadBc7 7 (leBytes 16 0x3F80)).toOption.map (fun d => anchors (modeRow 7).ns d.shape) = some [0, 15] := by
  decide +kernel

/-! ## DXT blocks -/

theorem witness_PaletteLiesBetweenEndpoints :
    (3 < 4 ∧ (0 : BitVec 16).toNat < (1 : BitVec 16).toNat) ∧ (3 < 4 ∧ (false = false)) ∧ (0 < 4 ∧ 0 ≠ 3) := by decide

theorem witness_InterpolatorLaws :
    (Rule.red 0xF800 = 255 ∧ Rule.red 0x001F = 0) ∧
    (Rule.blue 0x0000 = 0 ∧ Rule.blue 0x001F = 255 ∧ (0x0000 : BitVec 16).toNat ≤ (0x001F : BitVec 16).toNat) ∧
    (Rule.blue 0x001F = 255 ∧ Rule.blue 0x0800 = 0 ∧ (0x001F : BitVec 16).toNat ≤ (0x0800 : BitVec 16).toNat) := by decide

/-- Entry 7 with `a0 > a1`, entry 5 with `a0 ≤ a1`. -/
theorem witness_AlphaPaletteEntriesAndBounds :
    (7 < 8 ∧ (0 : Byte).toNat < (1 : Byte).toNat) ∧ (5 < 8 ∧ 5 < 6) := by decide

/-- The raster fills OUT to its last byte. -/
theorem witness_blocks_decode : rasterBytes fullOut = 64 ∧ rasterBytes fullOut ≤ fullOut.cfg.outCapacity := by decide

theorem witness_Dxt1AlphaProperty :
    (∃ t, exec (.dxt1 1 0 0xFFFFFFFF) fullOut = .next t ∧ (t.phase == .alpha) = true) ∧
    (∃ t, exec (.dxt1 1 1 0xFFFFFFFF) fullOut = .next t ∧ (t.phase == .alpha) = true) ∧
    4 * fullOut.ras.blkX + 15 % 4 < fullOut.ras.W ∧ 4 * fullOut.ras.blkY + 15 / 4 < fullOut.ras.H ∧
    Rule.field (0xFFFFFFFF : BitVec 32) (2 * 15) 2 = 3 :=
  ⟨exists_next (by decide +kernel), exists_next (by decide +kernel), by decide, by decide, by decide⟩

/-! ## BC7 blocks -/

theorem witness_Bc7BlocksDecode :
    [Rule.modeOf (.bc7Mode0 0 0 0 0 0 0), Rule.modeOf (.bc7Mode1 0 0 0 0 0 0), Rule.modeOf (.bc7Mode2 0 0 0 0 0),
      Rule.modeOf (.bc7Mode3 0 0 0 0 0 0), Rule.modeOf (.bc7Mode4 0 0 0 0 0 0 0 0), Rule.modeOf (.bc7Mode5 0 0 0 0 0 0 0),
      Rule.modeOf (.bc7Mode6 0 0 0 0 0 0), Rule.modeOf (.bc7Mode7 0 0 0 0 0 0 0)]
      = [some 0, some 1, some 2, some 3, some 4, some 5, some 6, some 7] ∧
    rasterBytes fullOut ≤ fullOut.cfg.outCapacity := by decide

theorem witness_OnlyBitKSetDecodesUnderModeK :
    0 < 8 ∧ 3 < 8 ∧ 4 < 8 ∧ 7 < 8 ∧ rasterBytes fullOut ≤ fullOut.cfg.outCapacity := by decide

theorem witness_PixelBlocksFaultOutsideOut :
    overOut.cfg.outCapacity + 1 = rasterBytes overOut ∧ (∀ data, Instr.dxt1 0 0 0 ≠ .decode data) ∧
    (∀ rest, Instr.dxt1 0 0 0 ≠ .bc7Reserved rest) :=
  ⟨by decide, fun _ h => (nomatch h), fun _ h => (nomatch h)⟩

theorem witness_UnquantisationReplicatesTopBits : (8 < 9 ∧ 5 ≤ 8 ∧ 255 + 1 = 2 ^ 8) ∧ (5 < 9 ∧ 5 ≤ 5 ∧ 31 + 1 = 2 ^ 5) := by
  decide

theorem witness_Bc7InterpolationLaws : 255 < 256 ∧ 0 < 256 ∧ 64 ≤ 64 := by decide

theorem witness_Bc7TablesAreConsistent : 4 < 5 ∧ 2 ≤ 2 ∧ 63 < 64 ∧ 15 < 16 ∧ 15 ∈ anchors 2 63 ∧ 8 ∈ anchors 3 63 := by
  decide

theorem witness_SrgbTableIsTheFormula : (10 : Byte).toNat ≤ (11 : Byte).toNat := by decide

/-! ## The DECODE command -/

theorem witness_ControlRegister :
    (coming (.access (.regWrite .word 0 1)) idle).status.busy = false ∧
    (coming (.access (.regWrite .word 0 1)) atBlock).status.busy = true ∧
    (coming (.access (.regWrite .word 0 2)) idle).turns = [.access (.regWrite .word 0 2)] ∧
    (coming (.access (.regRead .word 0)) idle).turns = [.access (.regRead .word 0)] := by decide

theorem witness_StartClearsTheResults :
    (1 : Word).getLsbD 0 = true ∧ idle.status.busy = false ∧ (coming (.ticks 0) idle).turns = [.ticks 0] := by decide

/-- Commanded, at every ending the checks of 60_exceptions R287 have but those of streams of 3 and 127 bytes. -/
theorem witness_DecodeResultIsTheFirstCheck :
    Commanded 1 idle ∧ Commanded 1 white ∧ Commanded 1 short ∧ Commanded 1 tight ∧ Commanded 1 reserved ∧
    Commanded 1 unknown ∧ Commanded 1 packed ∧ Commanded 1 { white with reqSlice := 1 } := by decide

theorem witness_verdicts :
    Rule.verdict { white with inLen := 3 } = (.errStructural, 0x00F2, 0) ∧
    Rule.verdict (load [0x44, 0x44, 0x53, 0x21]) = (.errStructural, 0x00F1, 0) ∧
    Rule.verdict { white with inLen := 127 } = (.errStructural, 0x00F2, 0) ∧
    Rule.verdict { reserved with inLen := 147 } = (.errStructural, 0x00F2, 0) ∧
    Rule.verdict unknown = (.passThrough, 0, 0) ∧ Rule.verdict packed = (.errUnsupported, 0, 0) ∧
    Rule.verdict { white with reqSlice := 1 } = (.errNotFound, 0, 0) ∧ Rule.verdict short = (.errIo, 0, 0) ∧
    Rule.verdict tight = (.errCapacity, 0, 0) ∧ Rule.verdict reserved = (.errStructural, 0x0883, 0) ∧
    Rule.verdict white = (.ok, 0, 0) := by decide +kernel

theorem witness_DecodeFrame :
    (∃ t, exec (.decode 1) short = .next t ∧ (t.status.result == .errIo && t.errInfo == 0) = true) ∧
    (∃ t, exec (.decode 1) white = .next t ∧ (t.status.result == .ok) = true) ∧ Rule.level white = some 0 :=
  ⟨exists_next (by decide +kernel), exists_next (by decide +kernel), by decide +kernel⟩

/-- A stream that holds its header exactly, and one a byte short. -/
theorem witness_HeaderMirrors :
    Commanded 1 unknown ∧ unknown.inLen = 128 ∧ Rule.HeaderWhole unknown ∧ ¬ Rule.HeaderWhole { unknown with inLen := 127 } ∧
    Commanded 1 { unknown with inLen := 127 } := by decide +kernel

theorem witness_PassThroughCompletes :
    Commanded 1 unknown ∧ Rule.HeaderWhole unknown ∧ Rule.format unknown = .passThrough := by decide +kernel

theorem witness_SliceAndSizeRegisters :
    (∃ t, exec (.decode 1) white = .next t ∧ (t.status.result == .ok) = true) ∧
    (∃ t, exec (.decode 1) tight = .next t ∧ (t.status.result == .errCapacity) = true) ∧
    (∃ t, exec (.decode 1) reserved = .next t ∧ (t.errInfo == 0x0883) = true) ∧
    (∃ t, exec (.decode 1) largestSlice = .next t ∧
      (t.status.result == .errIo && t.sliceSize == 0xFFFFFFF8) = true) ∧
    (∃ t, exec (.decode 1) unfitSlice = .next t ∧ (t.status.result == .errIo && t.sliceOffset == 128) = true) ∧
    Rule.size largestSlice 0 + 8 = 2 ^ 32 ∧ Rule.size unfitSlice 0 = 2 ^ 32 ∧
    (∃ t, exec (.decode 1) { white with reqSlice := 1 } = .next t ∧ (t.status.result == .errNotFound) = true) ∧
    (∃ t, exec (.decode 1) packed = .next t ∧ (t.status.result == .errUnsupported) = true) ∧
    (∃ t, exec (.decode 1) unknown = .next t ∧ (t.status.result == .passThrough) = true) ∧
    (∃ t, exec (.decode 1) { unknown with inLen := 127 } = .next t ∧ (t.status.result == .errStructural) = true) :=
  ⟨exists_next (by decide +kernel), exists_next (by decide +kernel), exists_next (by decide +kernel),
    exists_next (by decide +kernel), exists_next (by decide +kernel), by decide +kernel, by decide +kernel,
    exists_next (by decide +kernel), exists_next (by decide +kernel), exists_next (by decide +kernel),
    exists_next (by decide +kernel)⟩

theorem witness_WalkIsTheClosedForm : 0 < ({ idle with parse := { idle.parse with mips := 1 } }).parse.mips := by decide

theorem witness_RasterIsTheDecodedBlocks :
    Commanded 1 white ∧ (∃ t, exec (.decode 1) white = .next t ∧ (t.status.result == .ok) = true) ∧
    3 < Rule.width white 0 ∧ 3 < Rule.height white 0 :=
  ⟨by decide, exists_next (by decide +kernel), by decide +kernel, by decide +kernel⟩

theorem witness_IgnoreAlphaChangesAlphaOnly :
    Commanded 1 white ∧ (∃ t, exec (.decode 1) { white with reqFlags := 0 } = .next t ∧ (t.status.result == .ok) = true) ∧
    (∃ t, exec (.decode 1) { white with reqFlags := 1 } = .next t ∧ (t.status.result == .ok) = true) :=
  ⟨by decide, exists_next (by decide +kernel), exists_next (by decide +kernel)⟩

/-- Two states that differ in OUT, in the results of an earlier DECODE and in a byte behind the stream. -/
def other : State :=
  { white with outMem := [(0, 9)], outWidth := 7, errInfo := 5, draws := 3, inMem := white.inMem ++ [(200, 1)] }

theorem witness_DecodeDependsOnlyOnOperands :
    Commanded 1 white ∧ Commanded 1 other ∧ other ≠ white ∧ other.cfg = white.cfg ∧ other.inLen = white.inLen ∧
    (∀ k, k < white.inLen.toNat → inByte other k = inByte white k) ∧
    (∃ t, exec (.decode 1) white = .next t ∧ (t.status.result == .ok) = true) ∧
    (∃ t, exec (.decode 1) other = .next t ∧ (t.status.result == .ok) = true) :=
  ⟨by decide, by decide, by decide +kernel, rfl, rfl, by decide +kernel, exists_next (by decide +kernel),
    exists_next (by decide +kernel)⟩

theorem witness_TakingAFailure :
    failureResult (.bc7BitBudget 7 128) = .errStructural ∧ failureResult .io ≠ .errStructural ∧ 7 < 8 ∧ 128 ≤ 128 := by
  decide

theorem witness_FinishWritesTheSuccess :
    ({ atBlock with phase := .finish }).turns = [] ∧ ({ atBlock with phase := .finish }).phase = .finish := by decide

theorem witness_AtomicDecodeIsTheStepwiseOne :
    (1 : Word).getLsbD 0 = true ∧ white.status.busy = false ∧ white.turns = [] := by decide

/-- The white image in each phase its DECODE passes through, reached by the ENGINE's own steps. -/
theorem witness_PhasesFollowTheirOrder :
    nextIs (step idle) (fun t => t.phase == .idle) = true ∧
    nextIs (step (startDecode white)) (fun t => t.phase == .resolve) = true ∧
    nextIs (Sys2Proof.core.run 2 (startDecode white)) (fun t => t.phase == .locate) = true ∧
    nextIs (Sys2Proof.core.run 3 (startDecode white)) (fun t => t.phase == .alloc) = true ∧
    nextIs (Sys2Proof.core.run 4 (startDecode white)) (fun t => t.phase == .decode) = true ∧
    nextIs (Sys2Proof.core.run 5 (startDecode white)) (fun t => t.phase == .alpha) = true ∧
    nextIs (Sys2Proof.core.run 6 (startDecode white)) (fun t => t.phase == .finish && t.turns == []) = true ∧
    nextIs (Sys2Proof.core.run 7 (startDecode white)) (fun t => t.phase == .idle) = true := by decide +kernel

/-! ## The host's side -/

/-- The first and the last row of the map, on a core that is not BUSY. -/
theorem witness_RegisterMapReads :
    idle.status.busy = false ∧ (coming (.access (.regRead .word 0x9C)) idle).turns = [.access (.regRead .word 0x9C)] ∧
    (0x9C, idle.sliceSize) ∈ [((0x00 : Nat), (0 : Word)), (0x9C, idle.sliceSize)] := by decide

theorem witness_RegisterBlockTurnsAway :
    (Width.byte ≠ .word ∧ 0x06 % 4 ≠ 0 ∧ 0xA0 ≤ 0xA0 ∧ 0x1C ≤ 0x1C) ∧
    (coming (.access (.regRead .word 0xA0)) idle).turns = [.access (.regRead .word 0xA0)] ∧
    (coming (.access (.regWrite .word 0x04 1)) idle).turns = [.access (.regWrite .word 0x04 1)] := by decide

theorem witness_RequestRegisterWrites :
    idle.status.busy = false ∧
    (coming (.access (.regWrite .word 0x08 0xFFFFFFFF)) idle).turns = [.access (.regWrite .word 0x08 0xFFFFFFFF)] ∧
    (coming (.access (.regWrite .word 0x18 0xFFFFFFFF)) idle).turns = [.access (.regWrite .word 0x18 0xFFFFFFFF)] := by
  decide

theorem witness_WriteLockWhileBusy :
    atBlock.status.busy = true ∧
    (coming (.access (.inWrite .byte 0 1)) atBlock).turns = [.access (.inWrite .byte 0 1)] ∧
    (coming (.access (.inWrite .byte 0 1)) atBlock).turns.head? ≠ some .rst ∧
    (∃ t, step (coming (.access (.inWrite .byte 0 1)) atBlock) = .next t ∧ t.inMem.isEmpty = true) :=
  ⟨by decide, by decide, by decide, exists_next (by decide +kernel)⟩

/-- The last aligned word of IN, and writes turned away: misaligned, and one byte past the end. -/
theorem witness_InputWriteIsLittleEndian :
    idle.status.busy = false ∧ 4092 % widthBytes .word = 0 ∧ 4092 + widthBytes .word = idle.cfg.inCapacity ∧
    atBlock.status.busy = true ∧ 1 % widthBytes .half ≠ 0 ∧ idle.cfg.inCapacity < 4096 + widthBytes .byte ∧
    (coming (.access (.inWrite .word 4092 1)) idle).turns = [.access (.inWrite .word 4092 1)] := by decide

theorem witness_InputReadIsLittleEndian :
    4092 % widthBytes .word = 0 ∧ 4092 + widthBytes .word = idle.cfg.inCapacity ∧ 1 % widthBytes .half ≠ 0 ∧
    idle.cfg.inCapacity < 4096 + widthBytes .byte ∧
    (coming (.access (.inRead .word 4092)) idle).turns = [.access (.inRead .word 4092)] := by decide

/-- A core that shows a raster of 4 × 4 pixels, and the last word of it. -/
def showing : State :=
  { idle with
    status := { busy := false, done := true, rasterValid := true, ptValid := false, result := .ok }
    outWidth := 4
    outHeight := 4
    outMem := listed 0 (List.replicate 64 7) }

theorem witness_OutputAccess :
    60 % widthBytes .word = 0 ∧ 60 + widthBytes .word ≤ showing.cfg.outCapacity ∧ showing.status.busy = false ∧
    showing.status.rasterValid = true ∧ 60 + widthBytes .word = 4 * showing.outWidth.toNat * showing.outHeight.toNat ∧
    3 < widthBytes .word ∧ showing.outMem.read (60 + 3) = some 7 ∧ 62 % widthBytes .word ≠ 0 ∧
    showing.cfg.outCapacity < 4096 + widthBytes .word ∧
    (coming (.access (.outRead .word 60)) showing).turns = [.access (.outRead .word 60)] ∧
    (coming (.access (.outWrite .word 60 0)) showing).turns = [.access (.outWrite .word 60 0)] := by decide +kernel

/-! ## The machine -/

/-- The idle core meets the invariant. -/
theorem inv_idle : Inv idle := by
  refine ⟨by decide, by decide, by decide, by decide, by decide, by decide, by decide, by decide, by decide,
    List.Pairwise.nil, ?_, List.Pairwise.nil, ?_, trivial⟩ <;> intro c hc <;> cases hc

/-- A started DECODE meets it. -/
theorem inv_started : Inv (startDecode idle) := by
  refine ⟨by decide, by decide, by decide, by decide, by decide, by decide, by decide, by decide, by decide,
    List.Pairwise.nil, ?_, List.Pairwise.nil, ?_, trivial⟩ <;> intro c hc <;> cases hc

/-- A DECODE in phase DECODE meets it. -/
theorem inv_decoding : Inv decoding := by
  refine ⟨by decide, by decide, by decide, by decide, by decide, by decide, by decide, by decide, by decide,
    by decide, by decide, by decide, by decide,
    ⟨by decide, by decide, by decide, by decide, by decide⟩, ⟨by decide, by decide, by decide, by decide⟩⟩

theorem witness_StatusWordFields : Inv idle ∧ Inv (startDecode idle) := ⟨inv_idle, inv_started⟩

theorem witness_StatusAndRequestsReadWhileBusy :
    Inv (coming (.access (.regRead .word 0x04)) decoding) ∧
    (coming (.access (.regRead .word 0x04)) decoding).status.busy = true ∧
    (coming (.access (.regRead .word 0x04)) decoding).turns = [.access (.regRead .word 0x04)] := by
  refine ⟨⟨by decide, by decide, by decide, by decide, by decide, by decide, by decide, by decide, by decide,
    by decide, by decide, by decide, by decide,
    ⟨by decide, by decide, by decide, by decide, by decide⟩, ⟨by decide, by decide, by decide, by decide⟩⟩,
    by decide, by decide⟩

theorem witness_IdleCoreKeepsItsResults :
    idle.phase = .idle ∧ idle.turns = [] ∧
    (∃ t, step (coming (.access (.regWrite .word 0 2)) idle) = .next t ∧ (t.phase == .idle) = true) ∧
    (coming (.access (.regWrite .word 0 2)) idle).turns.head? ≠ some .rst ∧
    (coming (.access (.regWrite .word 0 2)) idle).turns.head? = some (.access (.regWrite .word 0 2)) ∧
    (2 : Word).getLsbD 0 = false :=
  ⟨by decide, by decide, exists_next (by decide +kernel), by decide, by decide, by decide⟩

theorem witness_ResetClearsTheCore : (coming .rst decoding).turns = [.rst] := by decide

theorem witness_DecodeAfterResetIsTruncated : (1 : Word).getLsbD 0 = true ∧ actsDuring decoding = false := by decide

/-- A command that decodes; a block that decodes at the last bytes of the stream, with and without turns left. -/
theorem witness_StepRunsTheDecodedInstruction :
    decode (.command 1) = .ok (.decode 1) ∧
    (coming (.access (.regWrite .word 0 1)) idle).turns = [.access (.regWrite .word 0 1)] ∧
    decoding.phase = .decode ∧
    decoding.sliceOffset.toNat + (decoding.ras.blkY * decoding.ras.BW + decoding.ras.blkX) * decoding.loc.bs
      + decoding.loc.bs = decoding.inLen.toNat ∧
    decode (.block decoding.loc.fmt (inBytes decoding 0 decoding.loc.bs)) = .ok (.dxt1 1 2 3) ∧
    decoding.turns = [] ∧ (coming (.ticks 1) decoding).turns = [.ticks (0 + 1)] := by decide +kernel

theorem witness_PlacedWordIsRunNext :
    decodeTableWord 8 0x80 = some (.bc7Mode7 0 0 0 0 0 0 0) ∧ decodeTableWord 32 1 = some (.decode 1) ∧
    decodeTableWord 64 0 = some (.dxt1 0 0 0) ∧ tableWord 8 0x80 = some (.block .bc7 (leBytes 16 0x80)) ∧
    tableWord 32 1 = some (.command 1) ∧ tableWord 64 0 = some (.block .dxt1 (leBytes 8 0)) := by decide +kernel

theorem witness_EveryStepKeepsTheInvariant :
    (Inv idle ∧ ∃ t, step idle = .next t ∧ (t.phase == .idle) = true) ∧
    (Inv (startDecode idle) ∧ ∃ t, step (startDecode idle) = .next t ∧ (t.phase == .idle) = true) ∧ Inv decoding :=
  ⟨⟨inv_idle, exists_next (by decide +kernel)⟩, ⟨inv_started, exists_next (by decide +kernel)⟩, inv_decoding⟩

end Sys2Proof.Tests
end

section
/-! Blocks and the phases of a DECODE: the inversion of the block dispatch, and what each phase leaves for the next one
(`PhaseInv`), from any state, so that it serves the invariant and the DECODE command alike. -/

namespace Sys2Proof.Machine

/-! ## The block dispatch -/

/-- How a block instruction ends: at the end of a block, with some pixels, or with a structural failure at the block's
index. The datapath registers it loads are released there, so they leave no trace. -/
def BlockEnds (s : State) (o : Host.Outcome State Fault Refusal) : Prop :=
  (∃ f, failureResult f = .errStructural ∧ o = .next (raiseBlockFail f (blockIndex s) s)) ∨ ∃ px, o = finishBlock px s

theorem finishBlock_dxt (px : List Pixel) (s : State) (d : DxtRegs) :
    finishBlock px { s with dxt := d } = finishBlock px s := by
  unfold finishBlock
  rfl

theorem finishBlock_bc7 (px : List Pixel) (s : State) (d : Bc7Regs) :
    finishBlock px { s with bc7 := d } = finishBlock px s := by
  unfold finishBlock
  rfl

theorem blockEnds_dxt (s : State) (px : List Pixel) (d : DxtRegs) :
    BlockEnds s (finishBlock px { s with dxt := d }) :=
  .inr ⟨px, finishBlock_dxt px s d⟩

theorem blockEnds_bc7Block (mode : Nat) (bytes : List Byte) (s : State) : BlockEnds s (bc7Block mode bytes s) := by
  unfold bc7Block
  cases loadBc7 mode bytes with
  | error pos => exact .inl ⟨.bc7BitBudget mode pos, rfl, rfl⟩
  | ok d => exact .inr ⟨_, finishBlock_bc7 _ s d⟩

theorem blockEnds_execBlock {i : Instr} (hi : ∀ data, i ≠ .decode data) (s : State) :
    BlockEnds s (execBlock i s) := by
  cases i with
  | decode data => exact absurd rfl (hi data)
  | dxt1 c0 c1 sel => exact blockEnds_dxt s (dxt1Pixels _) (loadDxt1 c0 c1 sel s.dxt)
  | dxt3 alpha c0 c1 sel => exact blockEnds_dxt s (dxt3Pixels alpha _) (loadColour c0 c1 sel s.dxt)
  | dxt5 a0 a1 asel c0 c1 sel => exact blockEnds_dxt s (dxt5Pixels _) (loadDxt5 a0 a1 asel c0 c1 sel s.dxt)
  | bc7Reserved => exact .inl ⟨.bc7ReservedMode, rfl, rfl⟩
  | _ =>
    simp only [execBlock, execBc7Mode0, execBc7Mode1, execBc7Mode2, execBc7Mode3, execBc7Mode4, execBc7Mode5,
      execBc7Mode6, execBc7Mode7]
    exact blockEnds_bc7Block _ _ s

/-- The dispatch of phase DECODE and that of a step run the same meaning. -/
theorem exec_eq_execBlock {i : Instr} (hi : ∀ data, i ≠ .decode data) (s : State) : exec i s = execBlock i s := by
  cases i with
  | decode data => exact absurd rfl (hi data)
  | _ => rfl

/-- A BC7 block decodes to a BC7 instruction, never to the command. -/
theorem decodeBc7_ne_decode (w : BitVec 128) (data : Word) : decodeBc7 w ≠ .decode data := by
  unfold decodeBc7
  split <;> exact Instr.noConfusion

/-- A decode key gives a block instruction, never the command (30_encoding R89). -/
theorem decodeBlock_ne_decode {fmt : BlockFormat} {blk : List Byte} {i : Instr} (h : decodeBlock fmt blk = .ok i)
    (data : Word) : i ≠ .decode data := by
  rintro rfl
  unfold decodeBlock at h
  split at h
  · cases h
  · split at h
    · cases h
    · split at h <;> simp [decodeDxt1, decodeDxt3, decodeDxt5, decodeBc7_ne_decode] at h

/-- A key whose bytes are as many as its format's block length decodes. -/
theorem decodeBlock_ok {fmt : BlockFormat} {blk : List Byte} (h : blockLength fmt = some blk.length) :
    ∃ i, decodeBlock fmt blk = .ok i := by
  unfold decodeBlock
  rw [h]
  cases fmt <;> simp

theorem fetchBlock_ne_decode {s : State} {i : Instr} (h : fetchBlock s = .ok i) (data : Word) : i ≠ .decode data :=
  decodeBlock_ne_decode (fetchBlock_eq_ok.1 h).2 data

theorem blockStep_of_fetch {s : State} {i : Instr} (h : fetchBlock s = .ok i) : blockStep s = exec i s := by
  rw [exec_eq_execBlock (fetchBlock_ne_decode h), blockStep, h]

/-! ## What each phase leaves for the next one -/

/-- The state behind a block with pixels `px`. -/
def afterBlock (px : List Pixel) (s : State) : State :=
  nextBlock (releaseDatapath { s with outMem := writePixels s.ras s.outMem 0 px })

/-- `PhaseInv` reads the phase, the parse, locator and raster registers, the slice registers, IN_LEN and the parameters
only; in particular nothing of the outside world. -/
theorem PhaseInv.of_world {s : State} (h : PhaseInv s) (turns : List Turn) (draws : Nat) (busData : Word) :
    PhaseInv { s with turns := turns, draws := draws, busData := busData } := by
  unfold PhaseInv at h ⊢
  dsimp only
  cases hp : s.phase <;> rw [hp] at h <;> dsimp only at h ⊢
  case resolve | locate | alpha | finish => exact h
  case alloc => exact ⟨h.format, h.width, h.height, h.size, h.inside⟩
  case decode =>
    obtain ⟨hs, hr⟩ := h
    exact ⟨⟨hs.format, hs.width, hs.height, hs.size, hs.inside⟩, ⟨hr.columns, hr.rows, hr.fits, hr.current⟩⟩

theorem phaseInv_of_idle {s : State} (h : s.phase = .idle) : PhaseInv s := by
  unfold PhaseInv
  rw [h]
  trivial

theorem phaseInv_of_parse {s : State} (h : s.phase = .parse) : PhaseInv s := by
  unfold PhaseInv
  rw [h]
  trivial

theorem phaseInv_resolve_iff {s : State} (h : s.phase = .resolve) :
    PhaseInv s ↔ s.parse.hl ≤ streamLength s ∧ s.parse.baseW < 2 ^ 32 ∧ s.parse.baseH < 2 ^ 32 := by
  simp only [PhaseInv, h]

theorem phaseInv_locate_iff {s : State} (h : s.phase = .locate) :
    PhaseInv s ↔ blockLength s.loc.fmt = some s.loc.bs ∧ s.parse.baseW < 2 ^ 32 ∧ s.parse.baseH < 2 ^ 32 := by
  simp only [PhaseInv, h]

theorem phaseInv_alloc_iff {s : State} (h : s.phase = .alloc) : PhaseInv s ↔ SliceReady s := by
  simp only [PhaseInv, h]

theorem phaseInv_decode_iff {s : State} (h : s.phase = .decode) : PhaseInv s ↔ SliceReady s ∧ RasterReady s := by
  simp only [PhaseInv, h]

theorem phaseInv_raster_iff {s : State} (h : s.phase = .alpha ∨ s.phase = .finish) :
    PhaseInv s ↔ s.ras.W < 2 ^ 32 ∧ s.ras.H < 2 ^ 32 ∧ rasterBytes s ≤ s.cfg.outCapacity := by
  rcases h with h | h <;> simp only [PhaseInv, h]

theorem headerLength_le_streamLength {s : State} (h : parseFailure s = none) :
    headerLength (streamHasDx10 s) ≤ streamLength s := by
  obtain ⟨h128, -, h148⟩ := parseFailure_eq_none.1 h
  unfold headerLength
  split
  · next hd => exact h148 hd
  · exact h128

/-- PARSE leaves a whole header, or the DECODE is over. -/
theorem phaseInv_parsePhase {s : State} (h : PhaseInv s) : PhaseInv (parsePhase s) := by
  by_cases hp : s.phase = .parse
  · obtain ⟨f, -, he⟩ | ⟨hf, he⟩ := parsePhase_cases hp <;> rw [he]
    · exact phaseInv_of_idle rfl
    · exact (phaseInv_resolve_iff rfl).2 ⟨headerLength_le_streamLength hf, inRead_lt s 16 4, inRead_lt s 12 4⟩
  · rwa [parsePhase_of_ne hp]

/-- A format the resolver does not end the DECODE on has a block decoder, and `bs` is its block length. -/
theorem blockLength_blockBytesOf {fmt : BlockFormat} (h0 : fmt ≠ .none) (h1 : fmt ≠ .passThrough)
    (h2 : fmt ≠ .unsupported) (h3 : fmt ≠ .uncompressed) (old : Nat) :
    blockLength fmt = some (blockBytesOf fmt old) := by
  cases fmt with
  | none => exact absurd rfl h0
  | passThrough => exact absurd rfl h1
  | unsupported => exact absurd rfl h2
  | uncompressed => exact absurd rfl h3
  | dxt1 | dxt3 | dxt5 | bc7 => rfl

/-- RESOLVE leaves a format with a block decoder, or the DECODE is over. -/
theorem phaseInv_resolvePhase {s : State} (h : PhaseInv s) : PhaseInv (resolvePhase s) := by
  by_cases hp : s.phase = .resolve
  · obtain ⟨-, hw, hh⟩ := (phaseInv_resolve_iff hp).1 h
    obtain ⟨-, he⟩ | ⟨-, he⟩ | ⟨h1, h2, h3, he⟩ := resolvePhase_cases hp <;> rw [he]
    · exact phaseInv_of_idle rfl
    · exact phaseInv_of_idle rfl
    · exact (phaseInv_locate_iff rfl).2
        ⟨blockLength_blockBytesOf (resolveFormat_ne_none s.cfg s.parse) h1 h2 h3 _, hw, hh⟩
  · rwa [resolvePhase_of_ne hp]

/-- The size of a level that has a column is its number of blocks times their length (40_container R140). -/
theorem levelSize_eq {w : Nat} (hw : 1 ≤ w) (h bs : Nat) : levelSize w h bs = blocksAlong w * blocksAlong h * bs := by
  have hb : max 1 (blocksAlong w) = blocksAlong w := Nat.max_eq_right (by unfold blocksAlong; omega)
  rw [levelSize, blockPitch, hb, Nat.mul_right_comm]

/-- FOUND leaves a slice inside the stream that holds the blocks of its level, or the DECODE is over. -/
theorem phaseInv_foundSlice {s : State} {f L pos : Nat} (hfmt : blockLength s.loc.fmt = some s.loc.bs)
    (hw : s.parse.baseW < 2 ^ 32) (hh : s.parse.baseH < 2 ^ 32) : PhaseInv (foundSlice (locatedAt s f L pos) s) := by
  obtain ⟨-, he⟩ | ⟨hin, he⟩ := foundSlice_cases (locatedAt s f L pos) s <;> rw [he]
  · exact phaseInv_of_idle rfl
  · have hlen : streamLength s < 2 ^ 32 := s.inLen.isLt
    have hoff := sliceWord_of_lt (unfit := Config.unfitOffset)
      (show (locatedAt s f L pos).pos < 2 ^ 32 by omega)
    have hsize := sliceWord_of_lt (unfit := Config.unfitSize)
      (show (locatedAt s f L pos).size < 2 ^ 32 by omega)
    refine (phaseInv_alloc_iff rfl).2
      { format := hfmt
        width := ⟨levelDim_pos _ _, levelDim_lt hw⟩
        height := ⟨levelDim_pos _ _, levelDim_lt hh⟩
        size := hsize.trans (levelSize_eq (levelDim_pos _ _) _ _)
        inside := ?_ }
    exact (congrArg₂ (· + ·) hoff hsize).trans_le hin

/-- LOCATE leaves a slice inside the stream, or the DECODE is over. -/
theorem phaseInv_locatePhase {s : State} (h : PhaseInv s) : PhaseInv (locatePhase s) := by
  by_cases hp : s.phase = .locate
  · obtain ⟨hfmt, hw, hh⟩ := (phaseInv_locate_iff hp).1 h
    obtain ⟨-, he⟩ | ⟨r, hr, he⟩ := locatePhase_cases hp <;> rw [he]
    · exact phaseInv_of_idle rfl
    · obtain ⟨f, L, pos, -, rfl⟩ := walkFaces_some hr
      exact phaseInv_foundSlice hfmt hw hh
  · rwa [locatePhase_of_ne hp]

theorem blocksAlong_pos {d : Nat} (h : 1 ≤ d) : 0 < blocksAlong d := by unfold blocksAlong; omega

/-- ALLOC leaves a raster that fits OUT, at its first block, or the DECODE is over. -/
theorem phaseInv_allocPhase {s : State} (h : PhaseInv s) : PhaseInv (allocPhase s) := by
  by_cases hp : s.phase = .alloc
  · have hs := (phaseInv_alloc_iff hp).1 h
    obtain ⟨hfit, he⟩ | ⟨-, he⟩ := allocPhase_cases hp <;> rw [he]
    · exact (phaseInv_decode_iff rfl).2
        ⟨⟨hs.format, hs.width, hs.height, hs.size, hs.inside⟩,
          ⟨rfl, rfl, hfit, blocksAlong_pos hs.width.1, blocksAlong_pos hs.height.1⟩⟩
    · exact phaseInv_of_idle rfl
  · rwa [allocPhase_of_ne hp]

/-- The current block's index is below the number of blocks (44_raster R254). -/
theorem blockIndex_lt {s : State} (h : RasterReady s) : blockIndex s < s.ras.BW * s.ras.BH := by
  obtain ⟨hx, hy⟩ := h.current
  calc blockIndex s < (s.ras.blkY + 1) * s.ras.BW := by unfold blockIndex; rw [Nat.add_mul]; omega
    _ ≤ s.ras.BH * s.ras.BW := Nat.mul_le_mul_right _ hy
    _ = s.ras.BW * s.ras.BH := Nat.mul_comm _ _

/-- The current block lies in the stream (44_raster R255). -/
theorem blockAddr_le {s : State} (hs : SliceReady s) (hr : RasterReady s) :
    blockAddr s + s.loc.bs ≤ streamLength s := by
  have hblocks : (blockIndex s + 1) * s.loc.bs ≤ s.sliceSize.toNat := by
    rw [hs.size, ← hr.columns, ← hr.rows]
    exact Nat.mul_le_mul_right _ (blockIndex_lt hr)
  have hin := hs.inside
  rw [Nat.add_mul] at hblocks
  unfold blockAddr
  omega

/-- In phase DECODE the fetch gives an instruction. -/
theorem fetchBlock_ok {s : State} (hs : SliceReady s) (hr : RasterReady s) : ∃ i, fetchBlock s = .ok i := by
  obtain ⟨i, hi⟩ := decodeBlock_ok (fmt := s.loc.fmt) (blk := inBytes s (blockAddr s) s.loc.bs)
    (by rw [inBytes_length]; exact hs.format)
  exact ⟨i, fetchBlock_eq_ok.2 ⟨blockAddr_le hs hr, hi⟩⟩

/-- Everything a block of phase DECODE can do: it answers, and either the block is written and the next is due, or the
DECODE has ended with a structural failure at the block's index. -/
theorem blockStep_cases {s : State} (hs : SliceReady s) (hr : RasterReady s) :
    (∃ f, failureResult f = .errStructural ∧ blockStep s = .next (raiseBlockFail f (blockIndex s) s)) ∨
    ∃ px, blockStep s = .next (afterBlock px s) := by
  obtain ⟨i, hi⟩ := fetchBlock_ok hs hr
  have he : blockStep s = execBlock i s := by rw [blockStep, hi]
  rw [he]
  exact (blockEnds_execBlock (fetchBlock_ne_decode hi) s).imp_right
    fun ⟨px, h⟩ => ⟨px, h.trans (finishBlock_of_fits hr.fits px)⟩

/-- Behind a block the counters name the next one, or the phase is ALPHA. -/
theorem phaseInv_afterBlock {s : State} (hp : s.phase = .decode) (hs : SliceReady s) (hr : RasterReady s)
    (px : List Pixel) : PhaseInv (afterBlock px s) := by
  obtain ⟨hx, hy⟩ := hr.current
  obtain ⟨hnext, he⟩ | ⟨-, hnext, he⟩ | ⟨-, -, he⟩ :=
    nextBlock_cases (releaseDatapath { s with outMem := writePixels s.ras s.outMem 0 px }) <;>
    rw [afterBlock, he]
  · refine (phaseInv_decode_iff ?_).2 ⟨⟨hs.format, hs.width, hs.height, hs.size, hs.inside⟩,
      ⟨hr.columns, hr.rows, hr.fits, hnext, hy⟩⟩
    exact hp
  · refine (phaseInv_decode_iff ?_).2 ⟨⟨hs.format, hs.width, hs.height, hs.size, hs.inside⟩,
      ⟨hr.columns, hr.rows, hr.fits, Nat.zero_lt_of_lt hx, hnext⟩⟩
    exact hp
  · exact (phaseInv_raster_iff (.inl rfl)).2 ⟨hs.width.2, hs.height.2, hr.fits⟩

/-- A block of phase DECODE answers, and leaves what the phase it goes to relies on. -/
theorem phaseInv_blockStep {s : State} (hp : s.phase = .decode) (h : PhaseInv s) :
    ∃ t, blockStep s = .next t ∧ PhaseInv t := by
  obtain ⟨hs, hr⟩ := (phaseInv_decode_iff hp).1 h
  obtain ⟨f, -, he⟩ | ⟨px, he⟩ := blockStep_cases hs hr
  · exact ⟨_, he, phaseInv_of_idle rfl⟩
  · exact ⟨_, he, phaseInv_afterBlock hp hs hr px⟩

/-- Phase ALPHA answers, and FINISH relies on what it relied on. -/
theorem phaseInv_alphaPhase {s : State} (h : PhaseInv s) : ∃ t, alphaPhase s = .next t ∧ PhaseInv t := by
  by_cases hp : s.phase = .alpha
  · have hr := (phaseInv_raster_iff (.inl hp)).1 h
    obtain ⟨-, he⟩ | ⟨-, -, he⟩ | ⟨-, hbig, -⟩ := alphaPhase_cases hp
    · exact ⟨_, he, (phaseInv_raster_iff (.inr rfl)).2 hr⟩
    · exact ⟨_, he, (phaseInv_raster_iff (.inr rfl)).2 hr⟩
    · obtain ⟨-, -, hfit⟩ := hr
      omega
  · exact ⟨s, alphaPhase_of_ne hp, h⟩

end Sys2Proof.Machine
end

section
/-! The invariant `Inv`: it holds at reset, and every phase, every block, every host access and so every step keeps
it. -/

namespace Sys2Proof.Machine

/-! ## The shape of the invariant while a DECODE runs and behind its end -/

/-- The part of `Inv` about what is stored: IN_LEN, REQ_FLAGS and both memories. No phase changes more of it than
OUT. -/
def Bounded (s : State) : Prop :=
  s.inLen.toNat ≤ s.cfg.inCapacity ∧ s.reqFlags.toNat < 2 ∧
    (s.inMem.wf ∧ s.inMem.below s.cfg.inCapacity) ∧ s.outMem.wf ∧ s.outMem.below s.cfg.outCapacity

theorem Inv.bounded {s : State} (h : Inv s) : Bounded s :=
  ⟨h.lengthFits, h.flagsReserved, ⟨h.inForm, h.inBelow⟩, h.outForm, h.outBelow⟩

/-- The part of `Inv` about STATUS, the phase and the raster shown to the HOST. -/
structure StatusInv (s : State) : Prop where
  busyPhase : s.status.busy = true ↔ s.phase ≠ .idle
  busyDone : s.status.busy = true → s.status.done = false
  doneResult : s.status.done = true ↔ s.status.result ≠ .none
  rasterValid : s.status.rasterValid = true → s.status.result = .ok
  ptValid : s.status.ptValid = true → s.status.result = .passThrough
  noRaster : s.status.result ≠ .ok → s.outWidth = 0 ∧ s.outHeight = 0
  rasterInside : 4 * s.outWidth.toNat * s.outHeight.toNat ≤ s.cfg.outCapacity

theorem Inv.statusInv {s : State} (h : Inv s) : StatusInv s := { h with }

theorem inv_of_parts {s : State} (hst : StatusInv s) (hb : Bounded s) (hph : PhaseInv s) : Inv s := by
  obtain ⟨hlen, hflags, ⟨hin, hinb⟩, hout, houtb⟩ := hb
  exact
    { hst with
      lengthFits := hlen
      flagsReserved := hflags
      inForm := hin
      inBelow := hinb
      outForm := hout
      outBelow := houtb
      phaseReady := hph }

/-- `Bounded` with other contents of OUT. -/
theorem Bounded.of_out {s t : State} (h : Bounded s)
    (ht : t.cfg = s.cfg ∧ t.inLen = s.inLen ∧ t.reqFlags = s.reqFlags ∧ t.inMem = s.inMem)
    (hwf : t.outMem.wf) (hbelow : t.outMem.below s.cfg.outCapacity) : Bounded t := by
  obtain ⟨hcfg, hlen, hflags, hin⟩ := ht
  obtain ⟨h1, h2, h3, -⟩ := h
  unfold Bounded
  rw [hcfg, hlen, hflags, hin]
  exact ⟨h1, h2, h3, hwf, hbelow⟩

/-- STATUS and the OUT dimensions from the start of a DECODE to its end (44_raster R252). -/
def Started (s : State) : Prop :=
  s.status = ⟨true, false, false, false, .none⟩ ∧ s.outWidth = 0 ∧ s.outHeight = 0

theorem started_startDecode (s : State) : Started (startDecode s) := ⟨rfl, rfl, rfl⟩

/-- While a phase other than IDLE is due, the core is as START left it. -/
theorem Inv.started {s : State} (h : Inv s) (hp : s.phase ≠ .idle) : Started s := by
  have hbusy := h.busyPhase.2 hp
  have hdone := h.busyDone hbusy
  have hresult : s.status.result = .none := by
    by_contra hn
    exact Bool.false_ne_true (hdone.symm.trans (h.doneResult.2 hn))
  have hraster : s.status.rasterValid = false := by
    by_contra hn
    have := h.rasterValid (Bool.eq_true_of_not_eq_false hn)
    simp [hresult] at this
  have hpt : s.status.ptValid = false := by
    by_contra hn
    have := h.ptValid (Bool.eq_true_of_not_eq_false hn)
    simp [hresult] at this
  obtain ⟨hw, hh⟩ := h.noRaster (by simp [hresult])
  refine ⟨?_, hw, hh⟩
  cases hs : s.status
  simp_all

/-- The invariant of a core in a phase other than IDLE. -/
theorem inv_of_started {s : State} (hs : Started s) (hp : s.phase ≠ .idle) (hb : Bounded s) (hph : PhaseInv s) :
    Inv s := by
  obtain ⟨hst, hw, hh⟩ := hs
  exact inv_of_parts
    { busyPhase := by simp [hst, hp]
      busyDone := by simp [hst]
      doneResult := by simp [hst]
      rasterValid := by simp [hst]
      ptValid := by simp [hst]
      noRaster := fun _ => ⟨hw, hh⟩
      rasterInside := by simp [hw] } hb hph

/-- Any failure of a DECODE leaves the invariant. -/
theorem inv_raiseFail (f : Failure) {s : State} (hs : Started s) (hb : Bounded s) : Inv (raiseFail f s) := by
  obtain ⟨-, hw, hh⟩ := hs
  exact inv_of_parts
    { busyPhase := by simp
      busyDone := by simp
      doneResult := by simp [(failureResult_ne f).1]
      rasterValid := by simp
      ptValid := by simp
      noRaster := fun _ => ⟨hw, hh⟩
      rasterInside := by simp [hw] } hb (phaseInv_of_idle rfl)

theorem inv_completePassThrough {s : State} (hs : Started s) (hb : Bounded s) : Inv (completePassThrough s) := by
  obtain ⟨hst, hw, hh⟩ := hs
  exact inv_of_parts
    { busyPhase := by simp
      busyDone := by simp
      doneResult := by simp
      rasterValid := by simp [hst]
      ptValid := by simp
      noRaster := fun _ => ⟨hw, hh⟩
      rasterInside := by simp [hw] } hb (phaseInv_of_idle rfl)

theorem inv_completeOk {s : State} (hs : Started s) (hb : Bounded s) (hfit : rasterBytes s ≤ s.cfg.outCapacity) :
    Inv (completeOk s) := by
  obtain ⟨hst, -, -⟩ := hs
  have hdims : 4 * (BitVec.ofNat 32 s.ras.W).toNat * (BitVec.ofNat 32 s.ras.H).toNat ≤ rasterBytes s := by
    simp only [BitVec.toNat_ofNat]
    exact Nat.mul_le_mul (Nat.mul_le_mul_left 4 (Nat.mod_le _ _)) (Nat.mod_le _ _)
  exact inv_of_parts
    { busyPhase := by simp
      busyDone := by simp
      doneResult := by simp
      rasterValid := by simp
      ptValid := by simp [hst]
      noRaster := by simp
      rasterInside := hdims.trans hfit } hb (phaseInv_of_idle rfl)

/-! ## The phases -/

theorem inv_startDecode {s : State} (h : Inv s) : Inv (startDecode s) :=
  inv_of_started (started_startDecode s) Phase.noConfusion h.bounded (phaseInv_of_parse rfl)

theorem inv_parsePhase {s : State} (h : Inv s) : Inv (parsePhase s) := by
  by_cases hp : s.phase = .parse
  · have hs := h.started (by simp [hp])
    have hph := phaseInv_parsePhase h.phaseReady
    obtain ⟨f, -, he⟩ | ⟨-, he⟩ := parsePhase_cases hp <;> rw [he] at hph ⊢
    · exact inv_raiseFail f hs h.bounded
    · exact inv_of_started hs Phase.noConfusion h.bounded hph
  · rwa [parsePhase_of_ne hp]

theorem inv_resolvePhase {s : State} (h : Inv s) : Inv (resolvePhase s) := by
  by_cases hp : s.phase = .resolve
  · have hs := h.started (by simp [hp])
    have hph := phaseInv_resolvePhase h.phaseReady
    obtain ⟨-, he⟩ | ⟨-, he⟩ | ⟨-, -, -, he⟩ := resolvePhase_cases hp <;> rw [he] at hph ⊢
    · exact inv_completePassThrough hs h.bounded
    · exact inv_raiseFail _ hs h.bounded
    · exact inv_of_started hs Phase.noConfusion h.bounded hph
  · rwa [resolvePhase_of_ne hp]

theorem inv_locatePhase {s : State} (h : Inv s) : Inv (locatePhase s) := by
  by_cases hp : s.phase = .locate
  · have hs := h.started (by simp [hp])
    have hph := phaseInv_locatePhase h.phaseReady
    obtain ⟨-, he⟩ | ⟨r, -, he⟩ := locatePhase_cases hp <;> rw [he] at hph ⊢
    · exact inv_raiseFail _ hs h.bounded
    · obtain ⟨-, he⟩ | ⟨-, he⟩ := foundSlice_cases r s <;> rw [he] at hph ⊢
      · exact inv_raiseFail _ hs h.bounded
      · exact inv_of_started hs Phase.noConfusion h.bounded hph
  · rwa [locatePhase_of_ne hp]

theorem inv_allocPhase {s : State} (h : Inv s) : Inv (allocPhase s) := by
  by_cases hp : s.phase = .alloc
  · have hs := h.started (by simp [hp])
    have hph := phaseInv_allocPhase h.phaseReady
    obtain ⟨-, he⟩ | ⟨-, he⟩ := allocPhase_cases hp <;> rw [he] at hph ⊢
    · exact inv_of_started hs Phase.noConfusion h.bounded hph
    · exact inv_raiseFail _ hs h.bounded
  · rwa [allocPhase_of_ne hp]

/-- The phase behind a block of phase DECODE is DECODE or ALPHA. -/
theorem afterBlock_phase_ne_idle {s : State} (hp : s.phase = .decode) (px : List Pixel) :
    (afterBlock px s).phase ≠ .idle := by
  rw [afterBlock, nextBlock_phase]
  split
  · simp [hp]
  · split <;> simp [hp]

theorem inv_blockStep {s t : State} (h : Inv s) (hp : s.phase = .decode) (ht : blockStep s = .next t) : Inv t := by
  have hs := h.started (by simp [hp])
  obtain ⟨hslice, hraster⟩ := (phaseInv_decode_iff hp).1 h.phaseReady
  obtain ⟨f, -, he⟩ | ⟨px, he⟩ := blockStep_cases hslice hraster <;> cases he.symm.trans ht
  · exact inv_raiseFail f hs h.bounded
  · have hb : Bounded (afterBlock px s) := by
      refine h.bounded.of_out ?_ ?_ ?_ <;> simp only [afterBlock, nextBlock_cfg, nextBlock_inLen, nextBlock_reqFlags,
        nextBlock_inMem, nextBlock_outMem]
      · exact ⟨rfl, rfl, rfl, rfl⟩
      · exact wf_writePixels h.outForm _ _ _
      · exact below_writePixels h.outBelow _ hraster.fits _ _
    refine inv_of_started ?_ (afterBlock_phase_ne_idle hp px) hb (phaseInv_afterBlock hp hslice hraster px)
    simpa [Started, afterBlock] using hs

theorem inv_alphaPhase {s t : State} (h : Inv s) (ht : alphaPhase s = .next t) : Inv t := by
  by_cases hp : s.phase = .alpha
  · have hs := h.started (by simp [hp])
    have hr := (phaseInv_raster_iff (.inl hp)).1 h.phaseReady
    obtain ⟨-, he⟩ | ⟨-, hfit, he⟩ | ⟨-, -, he⟩ := alphaPhase_cases hp <;> cases he.symm.trans ht
    · exact inv_of_started hs Phase.noConfusion h.bounded ((phaseInv_raster_iff (.inr rfl)).2 hr)
    · have hn : 4 * (s.ras.W * s.ras.H) ≤ s.cfg.outCapacity := by rwa [← Nat.mul_assoc]
      exact inv_of_started hs Phase.noConfusion
        (h.bounded.of_out ⟨rfl, rfl, rfl, rfl⟩ (wf_forceAlpha h.outForm _) (below_forceAlpha h.outBelow hn))
        ((phaseInv_raster_iff (.inr rfl)).2 hr)
  · cases (alphaPhase_of_ne hp).symm.trans ht
    exact h

theorem inv_finishPhase {s : State} (h : Inv s) : Inv (finishPhase s) := by
  by_cases hp : s.phase = .finish
  · obtain ⟨-, -, hfit⟩ := (phaseInv_raster_iff (.inr hp)).1 h.phaseReady
    rw [finishPhase_of_eq hp]
    exact inv_completeOk (h.started (by simp [hp])) h.bounded hfit
  · rwa [finishPhase_of_ne hp]

/-! ## A whole DECODE -/

theorem inv_runBlocks {n : Nat} {s t : State} (h : Inv s) (ht : runBlocks n s = .next t) : Inv t := by
  induction n generalizing s with
  | zero => cases ht; exact h
  | succ n ih =>
    by_cases hp : s.phase = .decode
    · obtain ⟨u, hu, -⟩ := phaseInv_blockStep hp h.phaseReady
      rw [runBlocks_succ_next hp hu] at ht
      exact ih (inv_blockStep h hp hu) ht
    · cases (runBlocks_of_ne hp).symm.trans ht
      exact h

/-- Everything the phases behind ALLOC can do when they answer. -/
theorem runRaster_next {s t : State} (h : runRaster s = .next t) :
    (s.phase ≠ .decode ∧ t = s) ∨
    ∃ u v, s.phase = .decode ∧ runBlocks (s.ras.BW * s.ras.BH) s = .next u ∧ alphaPhase u = .next v ∧
      t = finishPhase v := by
  unfold runRaster at h
  split at h
  · next hp =>
    split at h
    · next u hu =>
      split at h
      · next v hv =>
        cases h
        exact .inr ⟨u, v, hp, hu, hv, rfl⟩
      · cases h
      · cases h
    · cases h
    · cases h
  · next hp =>
    cases h
    exact .inl ⟨hp, rfl⟩

theorem inv_runRaster {s t : State} (h : Inv s) (ht : runRaster s = .next t) : Inv t := by
  obtain ⟨-, rfl⟩ | ⟨u, v, -, hu, hv, rfl⟩ := runRaster_next ht
  · exact h
  · exact inv_finishPhase (inv_alphaPhase (inv_runBlocks h hu) hv)

theorem inv_runDecode {s t : State} (h : Inv s) (ht : runDecode s = .next t) : Inv t :=
  inv_runRaster (inv_allocPhase (inv_locatePhase (inv_resolvePhase (inv_parsePhase h)))) ht

theorem inv_execDecode {data : Word} {s t : State} (h : Inv s) (ht : exec (.decode data) s = .next t) : Inv t := by
  change execDecode data s = .next t at ht
  obtain ⟨-, he⟩ | ⟨-, -, -, he⟩ | ⟨-, -, -, he⟩ := execDecode_cases data s <;> rw [he] at ht
  · cases ht
    exact h
  · cases ht
    exact inv_startDecode h
  · exact inv_runDecode (inv_startDecode h) ht

/-! ## The outside world -/

/-- What belongs to the outside world is not in the invariant. -/
theorem Inv.of_world {s : State} (h : Inv s) (turns : List Turn) (draws : Nat) (busData : Word) :
    Inv { s with turns := turns, draws := draws, busData := busData } :=
  { h with phaseReady := h.phaseReady.of_world turns draws busData }

theorem bounded_hostAccess (a : HostAccess) {s : State} (h : Bounded s) : Bounded (hostAccess a s) := by
  obtain ⟨hlen, hflags, ⟨hin, hinb⟩, hout⟩ := h
  cases a with
  | regWrite w off v =>
    simp only [hostAccess, regWrite]
    split
    · exact ⟨hlen, hflags, ⟨hin, hinb⟩, hout⟩
    · split
      · refine ⟨?_, hflags, ⟨hin, hinb⟩, hout⟩
        exact (BitVec.toNat_ofNat _ _).trans_le ((Nat.mod_le _ _).trans (Nat.min_le_right _ _))
      case h_5 =>
        refine ⟨hlen, ?_, ⟨hin, hinb⟩, hout⟩
        show (v &&& 1).toNat < 2
        rw [BitVec.toNat_and]
        exact Nat.and_lt_two_pow (n := 1) _ (by decide)
      all_goals exact ⟨hlen, hflags, ⟨hin, hinb⟩, hout⟩
  | regRead w off =>
    simp only [hostAccess, regRead]
    split
    · exact ⟨hlen, hflags, ⟨hin, hinb⟩, hout⟩
    · split <;> exact ⟨hlen, hflags, ⟨hin, hinb⟩, hout⟩
  | inWrite w addr v =>
    obtain ⟨-, he⟩ | ⟨-, -, hcap, he⟩ := inWrite_cases w addr v s <;> rw [hostAccess, he]
    · exact ⟨hlen, hflags, ⟨hin, hinb⟩, hout⟩
    · exact ⟨hlen, hflags,
        ⟨Memory.wf_writeList hin _ _, Memory.below_writeList hinb _ (by rwa [leBytes_length])⟩, hout⟩
  | inRead w addr =>
    simp only [hostAccess, inReadAccess]
    split <;> exact ⟨hlen, hflags, ⟨hin, hinb⟩, hout⟩
  | outWrite w addr v => exact ⟨hlen, hflags, ⟨hin, hinb⟩, hout⟩
  | outRead w addr =>
    simp only [hostAccess, outReadAccess]
    split <;> exact ⟨hlen, hflags, ⟨hin, hinb⟩, hout⟩

theorem inv_hostAccess (a : HostAccess) {s : State} (h : Inv s) : Inv (hostAccess a s) := by
  by_cases hp : s.phase = .idle
  · have hb := bounded_hostAccess a h.bounded
    rw [hostAccess_frame] at hb ⊢
    exact inv_of_parts { h.statusInv with } hb (phaseInv_of_idle hp)
  · rw [hostAccess_of_busy (h.busyPhase.2 hp)]
    exact h.of_world s.turns _ _

/-- The reset state meets the invariant, whatever the parameters and the model's own fields are. -/
theorem inv_reset (cfg : Params) (draws epoch : Nat) (turns : List Turn) (busData : Word) :
    Inv { State.reset with cfg := cfg, draws := draws, epoch := epoch, turns := turns, busData := busData } :=
  inv_of_parts
    { busyPhase := by simp [State.reset, Status.reset]
      busyDone := by simp [State.reset, Status.reset]
      doneResult := by simp [State.reset, Status.reset]
      rasterValid := by simp [State.reset, Status.reset]
      ptValid := by simp [State.reset, Status.reset]
      noRaster := fun _ => ⟨rfl, rfl⟩
      rasterInside := Nat.zero_le _ }
    ⟨Nat.zero_le _, Nat.zero_lt_two, ⟨reset_memory_wf.1, List.forall_mem_nil _⟩, reset_memory_wf.2,
      List.forall_mem_nil _⟩
    (phaseInv_of_idle rfl)

/-! ## A step -/

theorem inv_engineMove_moved {s t : State} (h : Inv s) (ht : engineMove s = .moved t) : Inv t := by
  cases hp : s.phase with
  | idle => cases (engineMove_idle hp).symm.trans ht; exact h
  | parse => cases (engineMove_parse hp).symm.trans ht; exact inv_parsePhase h
  | resolve => cases (engineMove_resolve hp).symm.trans ht; exact inv_resolvePhase h
  | locate => cases (engineMove_locate hp).symm.trans ht; exact inv_locatePhase h
  | alloc => cases (engineMove_alloc hp).symm.trans ht; exact inv_allocPhase h
  | decode =>
    cases hf : fetchBlock s with
    | error f => cases (engineMove_decode_stop hp hf).symm.trans ht
    | ok i => cases (engineMove_decode hp hf).symm.trans ht
  | alpha =>
    obtain ⟨u, hu, -⟩ := phaseInv_alphaPhase h.phaseReady
    cases (engineMove_alpha hp hu).symm.trans ht
    exact inv_alphaPhase h hu
  | finish => cases (engineMove_finish hp).symm.trans ht; exact inv_finishPhase h

/-- The ENGINE runs an instruction only in phase DECODE, and it is the current block's. -/
theorem engineMove_run {s u : State} {i : Instr} (h : engineMove s = .run i u) :
    s.phase = .decode ∧ fetchBlock s = .ok i ∧ u = s := by
  cases hp : s.phase with
  | idle => cases (engineMove_idle hp).symm.trans h
  | parse => cases (engineMove_parse hp).symm.trans h
  | resolve => cases (engineMove_resolve hp).symm.trans h
  | locate => cases (engineMove_locate hp).symm.trans h
  | alloc => cases (engineMove_alloc hp).symm.trans h
  | decode =>
    cases hf : fetchBlock s with
    | error f => cases (engineMove_decode_stop hp hf).symm.trans h
    | ok j => cases (engineMove_decode hp hf).symm.trans h; exact ⟨rfl, rfl, rfl⟩
  | alpha =>
    simp only [engineMove, hp] at h
    split at h <;> cases h
  | finish => cases (engineMove_finish hp).symm.trans h

/-- A host access that is a command is a write of START to CTRL. -/
theorem commandOf_eq_some {a : HostAccess} {i : Instr} (h : commandOf a = some i) :
    ∃ v, a = .regWrite .word 0 v ∧ v.getLsbD 0 = true ∧ i = .decode v := by
  unfold commandOf at h
  split at h
  · next v =>
    have hc := commandOf_ctrl v
    simp only [commandOf] at hc
    rw [hc] at h
    split at h
    · next hv => cases h; exact ⟨v, rfl, hv, rfl⟩
    · cases h
  · cases h

/-- What a step is by the outside world's next turn (log entry 11): an ENGINE step with no turn left or behind a tick,
or that turn's own effect on the state behind it. -/
theorem nextTurn_cases (s : State) :
    (s.turns = [] ∧ nextMove s = engineMove s) ∨
    (∃ n rest, s.turns = .ticks (n + 1) :: rest ∧ nextMove s = engineMove { s with turns := .ticks n :: rest }) ∨
    (∃ rest, s.turns = .ticks 0 :: rest ∧ step s = .next { s with turns := rest }) ∨
    (∃ rest, s.turns = .rst :: rest ∧ step s = .next (applyReset { s with turns := rest })) ∨
    (∃ a rest, s.turns = .access a :: rest ∧ commandOf a = none ∧
      step s = .next (hostAccess a { s with turns := rest })) ∨
    (∃ v rest, s.turns = .access (.regWrite .word 0 v) :: rest ∧ v.getLsbD 0 = true ∧
      step s = exec (.decode v) { s with turns := rest }) := by
  cases ht : s.turns with
  | nil => exact .inl ⟨rfl, nextMove_of_nil ht⟩
  | cons turn rest =>
    refine .inr ?_
    cases turn with
    | ticks n =>
      cases n with
      | zero => exact .inr (.inl ⟨rest, rfl, step_of_moved (nextMove_of_ticks_zero ht)⟩)
      | succ n => exact .inl ⟨n, rest, rfl, nextMove_of_ticks_succ ht⟩
    | rst => exact .inr (.inr (.inl ⟨rest, rfl, step_of_moved (nextMove_of_rst ht)⟩))
    | access a =>
      refine .inr (.inr (.inr ?_))
      cases hc : commandOf a with
      | none => exact .inl ⟨a, rest, rfl, hc, step_of_moved (nextMove_of_access ht hc)⟩
      | some i =>
        obtain ⟨v, rfl, hv, rfl⟩ := commandOf_eq_some hc
        exact .inr ⟨v, rest, rfl, hv, step_of_run (nextMove_of_command ht hc)⟩

/-- An ENGINE step that answers keeps the invariant. -/
theorem inv_engineStep {s u t : State} (h : Inv u) (hm : nextMove s = engineMove u) (ht : step s = .next t) :
    Inv t := by
  obtain hmoved | ⟨i, v, hrun, hexec⟩ := step_next_cases ht
  · exact inv_engineMove_moved h (hm.symm.trans hmoved)
  · obtain ⟨hp, hf, rfl⟩ := engineMove_run (hm.symm.trans hrun)
    exact inv_blockStep h hp ((blockStep_of_fetch hf).trans hexec)

theorem inv_step {s t : State} (h : Inv s) (ht : step s = .next t) : Inv t := by
  have behind (turns : List Turn) : Inv { s with turns := turns } := h.of_world turns s.draws s.busData
  obtain ⟨-, hm⟩ | ⟨n, rest, -, hm⟩ | ⟨rest, -, he⟩ | ⟨rest, -, he⟩ | ⟨a, rest, -, -, he⟩ | ⟨v, rest, -, -, he⟩ :=
    nextTurn_cases s
  · exact inv_engineStep h hm ht
  · exact inv_engineStep (behind _) hm ht
  · cases he.symm.trans ht
    exact behind rest
  · cases he.symm.trans ht
    exact inv_reset s.cfg s.draws (s.epoch + 1) rest s.busData
  · cases he.symm.trans ht
    exact inv_hostAccess a (behind rest)
  · exact inv_execDecode (behind rest) (he.symm.trans ht)

/-- Settles O57: the reset state with its own parameters. -/
theorem invariantHoldsAtReset : Obligations.InvariantHoldsAtReset :=
  inv_reset State.reset.cfg 0 0 [] 0

/-- Settles O58, from the step lemmas of the ENGINE's phases, of a block and of the outside world's turns. -/
theorem everyStepKeepsTheInvariant : Obligations.EveryStepKeepsTheInvariant := fun _ _ => inv_step

end Sys2Proof.Machine
end

section
/-! The HOST's side: what the register block serves and turns away, the CTRL register, the STATUS word and the reset
input. -/

namespace Sys2Proof.Machine

/-! ## Register accesses -/

theorem registerAccess_eq_false {w : Width} {off : Nat} (h : w ≠ .word ∨ off % 4 ≠ 0) :
    registerAccess w off = false := by
  rcases h with h | h <;> simp [registerAccess, h]

theorem registerAccess_word {off : Nat} (h : off % 4 = 0) : registerAccess .word off = true := by
  simp [registerAccess, h]

/-- A narrow or misaligned read gives 0. -/
theorem regRead_of_refused {w : Width} {off : Nat} (h : w ≠ .word ∨ off % 4 ≠ 0) (s : State) :
    regRead w off s = { s with busData := 0 } := by
  rw [regRead, if_pos (registerAccess_eq_false h)]

/-- A read of a register that is not left open while BUSY gives its value. -/
theorem regRead_of_served {off : Nat} {s : State} (h : off % 4 = 0)
    (hb : s.status.busy = false ∨ unspecifiedWhileBusy off = false) :
    regRead .word off s = { s with busData := registerValue s off } := by
  have hn : ¬ (s.status.busy = true ∧ unspecifiedWhileBusy off = true) := by
    rintro ⟨h1, h2⟩
    rcases hb with hb | hb <;> simp_all
  rw [regRead, registerAccess_word h, if_neg Bool.noConfusion, if_neg hn]

/-- A narrow or misaligned write, or any write while BUSY, changes nothing. -/
theorem regWrite_of_refused {w : Width} {off : Nat} {s : State}
    (h : (w ≠ .word ∨ off % 4 ≠ 0) ∨ s.status.busy = true) (v : Word) : regWrite w off v s = s := by
  unfold regWrite
  rw [if_pos (h.imp_left registerAccess_eq_false)]

/-- A write to CTRL that is no command, to a read-only register or to an unlisted offset changes nothing. -/
theorem regWrite_of_readOnly {off : Nat} (h : off ≤ 0x04 ∨ 0x1C ≤ off) (w : Width) (v : Word) (s : State) :
    regWrite w off v s = s := by
  unfold regWrite
  split
  · rfl
  · split
    case h_6 => rfl
    all_goals omega

/-- An offset behind the last register reads 0. -/
theorem registerValue_of_unlisted {off : Nat} (h : 0xA0 ≤ off) (s : State) : registerValue s off = 0 := by
  unfold registerValue
  split
  case h_40 => rfl
  all_goals omega

theorem unspecifiedWhileBusy_of_unlisted {off : Nat} (h : 0xA0 ≤ off) : unspecifiedWhileBusy off = false := by
  simp only [unspecifiedWhileBusy, decide_eq_false_iff_not]
  omega

/-- A register write that is narrow or not to CTRL is no command. -/
theorem commandOf_regWrite_of_ne {w : Width} {off : Nat} (h : w ≠ .word ∨ off ≠ 0) (v : Word) :
    commandOf (.regWrite w off v) = none := by
  cases hc : commandOf (.regWrite w off v) with
  | none => rfl
  | some i =>
    obtain ⟨u, hu, -, -⟩ := commandOf_eq_some hc
    cases hu
    rcases h with h | h <;> exact absurd rfl h

theorem step_of_access {s : State} {a : HostAccess} {rest : List Turn} (h : s.turns = .access a :: rest)
    (hc : commandOf a = none) : step s = .next (hostAccess a { s with turns := rest }) :=
  step_of_moved (nextMove_of_access h hc)

theorem step_of_regRead {s : State} {w : Width} {off : Nat} {rest : List Turn}
    (h : s.turns = .access (.regRead w off) :: rest) : step s = .next (regRead w off { s with turns := rest }) :=
  step_of_access h rfl

theorem step_of_regWrite {s : State} {w : Width} {off : Nat} {v : Word} {rest : List Turn}
    (h : s.turns = .access (.regWrite w off v) :: rest) (hc : w ≠ .word ∨ off ≠ 0) :
    step s = .next (regWrite w off v { s with turns := rest }) :=
  step_of_access h (commandOf_regWrite_of_ne hc v)

/-! ## CTRL -/

/-- A write of START to CTRL makes the step run DECODE. -/
theorem step_of_start {s : State} {v : Word} {rest : List Turn} (h : s.turns = .access (.regWrite .word 0 v) :: rest)
    (hv : v.getLsbD 0 = true) : step s = exec (.decode v) { s with turns := rest } :=
  step_of_run (nextMove_of_command h (by rw [commandOf_ctrl, if_pos hv]))

/-- A DECODE while BUSY has no effect (10_state R36). -/
theorem exec_decode_of_busy {s : State} (h : s.status.busy = true) (v : Word) : exec (.decode v) s = .next s :=
  if_pos (.inr h)

theorem step_of_start_busy {s : State} {v : Word} {rest : List Turn} (hb : s.status.busy = true)
    (h : s.turns = .access (.regWrite .word 0 v) :: rest) (hv : v.getLsbD 0 = true) :
    step s = .next { s with turns := rest } := by
  rw [step_of_start h hv]
  exact exec_decode_of_busy (s := { s with turns := rest }) hb v

/-- Settles O27: a write by the START bit and BUSY, and a read. -/
theorem controlRegister : Obligations.ControlRegister := by
  intro v rest s
  refine ⟨fun h => ⟨fun hv _ => step_of_start h hv, fun hv hb => step_of_start_busy hb h hv, fun hv => ?_⟩, fun h => ?_⟩
  · have hc : commandOf (.regWrite .word 0 v) = none := by rw [commandOf_ctrl, hv]; rfl
    rw [step_of_access h hc, hostAccess, regWrite_of_readOnly (.inl (Nat.zero_le _))]
  · rw [step_of_regRead h, regRead_of_served rfl (.inr rfl)]
    rfl

/-! ## STATUS -/

theorem resultCode_lt (r : Result) : resultCode r < 8 := by cases r <;> decide

/-- The number of the STATUS word is the weighted sum of its fields (10_state R24). -/
theorem statusWord_toNat (t : Status) :
    (statusWord t).toNat = t.busy.toNat + 2 * t.done.toNat + 4 * t.rasterValid.toNat + 8 * t.ptValid.toNat
      + 256 * resultCode t.result := by
  have h1 := t.busy.toNat_lt
  have h2 := t.done.toNat_lt
  have h3 := t.rasterValid.toNat_lt
  have h4 := t.ptValid.toNat_lt
  have h5 := resultCode_lt t.result
  rw [statusWord, BitVec.toNat_ofNat, Nat.mod_eq_of_lt (by omega)]

/-- A bit of a word is a Boolean when the number's binary digit there is. -/
theorem getLsbD_of_digit {w : Word} {i : Nat} {b : Bool} (h : w.toNat / 2 ^ i % 2 = b.toNat) : w.getLsbD i = b := by
  rw [BitVec.getLsbD, Nat.testBit_eq_decide_div_mod_eq, h]
  cases b <;> rfl

/-- A bit range of a word is a number when the word's digits there make it. -/
theorem extractLsb'_of_digits {w : Word} {lo n k : Nat} (h : w.toNat / 2 ^ lo % 2 ^ n = k) :
    w.extractLsb' lo n = BitVec.ofNat n k := by
  apply BitVec.eq_of_toNat_eq
  rw [BitVec.extractLsb'_toNat, BitVec.toNat_ofNat, Nat.shiftRight_eq_div_pow, ← h, Nat.mod_mod]

/-- The fields of the STATUS word (10_state R24). -/
theorem statusWord_fields (t : Status) :
    (statusWord t).getLsbD 0 = t.busy ∧ (statusWord t).getLsbD 1 = t.done ∧
    (statusWord t).getLsbD 2 = t.rasterValid ∧ (statusWord t).getLsbD 3 = t.ptValid ∧
    (statusWord t).extractLsb' 4 4 = 0 ∧ (statusWord t).extractLsb' 8 4 = BitVec.ofNat 4 (resultCode t.result) ∧
    (statusWord t).extractLsb' 12 20 = 0 := by
  have hw := statusWord_toNat t
  have h1 := t.busy.toNat_lt
  have h2 := t.done.toNat_lt
  have h3 := t.rasterValid.toNat_lt
  have h4 := t.ptValid.toNat_lt
  have h5 := resultCode_lt t.result
  exact ⟨getLsbD_of_digit (by omega), getLsbD_of_digit (by omega), getLsbD_of_digit (by omega),
    getLsbD_of_digit (by omega), extractLsb'_of_digits (k := 0) (by omega), extractLsb'_of_digits (by omega),
    extractLsb'_of_digits (k := 0) (by omega)⟩

/-- Settles O43: the fields by their digits, the implications from the invariant. -/
theorem statusWordFields : Obligations.StatusWordFields := by
  refine ⟨fun t => ?_, fun s h => ?_⟩
  · obtain ⟨hbusy, hdone, hraster, hpt, hlow, hresult, hhigh⟩ := statusWord_fields t
    refine ⟨hbusy, hdone, hraster, hpt, hlow, hresult.trans ?_, hhigh⟩
    cases t.result <;> rfl
  · obtain ⟨-, hdone, -⟩ := statusWord_fields s.status
    exact ⟨hdone.symm, fun ⟨hb, hd⟩ => Bool.false_ne_true ((h.busyDone hb).symm.trans hd), h.rasterValid, h.ptValid⟩

/-! ## The register map -/

/-- The register map of 10_state R22: offset and value of each listed register. -/
def registerMap (s : State) : List (Nat × Word) :=
  [(0x00, 0), (0x04, statusWord s.status), (0x08, s.inLen), (0x0C, s.reqSlice), (0x10, s.reqWidth),
    (0x14, s.reqHeight), (0x18, s.reqFlags), (0x1C, s.outWidth), (0x20, s.outHeight), (0x24, s.outFormat),
    (0x28, s.ptOffset), (0x2C, s.ptLength), (0x30, s.errInfo), (0x34, s.errBlock),
    (0x38, BitVec.ofNat 32 s.cfg.inCapacity), (0x3C, BitVec.ofNat 32 s.cfg.outCapacity), (0x40, s.hdr.magic),
    (0x44, s.hdr.width), (0x48, s.hdr.height), (0x4C, s.hdr.pitch), (0x50, s.hdr.mipCount), (0x54, s.hdr.pfFlags),
    (0x58, s.hdr.fourCC), (0x5C, s.hdr.rgbBitCount), (0x60, s.hdr.rMask), (0x64, s.hdr.gMask), (0x68, s.hdr.bMask),
    (0x6C, s.hdr.aMask), (0x70, s.hdr.caps), (0x74, s.hdr.caps2), (0x78, s.hdr.dxgi), (0x7C, s.hdr.resDim),
    (0x80, s.hdr.miscFlag), (0x84, s.hdr.arraySize), (0x88, s.hdr.miscFlags2), (0x8C, s.hdr.info),
    (0x90, s.hdr.mipsEff), (0x94, s.hdr.length), (0x98, s.sliceOffset), (0x9C, s.sliceSize)]

/-- The machine's registers are those of the map, at aligned offsets. -/
theorem registerValue_of_mem {s : State} {p : Nat × Word} (h : p ∈ registerMap s) :
    p.1 % 4 = 0 ∧ registerValue s p.1 = p.2 := by
  revert p
  simp only [registerMap, List.forall_mem_cons, List.not_mem_nil, false_implies, implies_true, and_true,
    true_and]
  repeat' apply And.intro
  all_goals rfl

/-- Settles O44: an idle core serves every offset of the map. -/
theorem registerMapReads : Obligations.RegisterMapReads := by
  intro s off v rest hb h hmem
  obtain ⟨hal, hv⟩ := registerValue_of_mem (p := (off, v)) hmem
  rw [step_of_regRead h, regRead_of_served (off := off) (s := { s with turns := rest }) hal (.inl hb)]
  exact congrArg (fun x => Host.Outcome.next { s with turns := rest, busData := x }) hv

/-- Settles O45: a read by the reason it is turned away for, and a write likewise. -/
theorem registerBlockTurnsAway : Obligations.RegisterBlockTurnsAway := by
  intro s w off v rest
  refine ⟨fun hoff h => ?_, fun hoff h => ?_⟩
  · rw [step_of_regRead h]
    by_cases hr : w ≠ .word ∨ off % 4 ≠ 0
    · rw [regRead_of_refused hr]
    · obtain ⟨rfl, hal⟩ : w = .word ∧ off % 4 = 0 := by simpa [not_or] using hr
      have hun : 0xA0 ≤ off := by simpa [hal] using hoff
      rw [regRead_of_served hal (.inr (unspecifiedWhileBusy_of_unlisted hun)), registerValue_of_unlisted hun]
  · have hc : w ≠ .word ∨ off ≠ 0 := by
      rcases hoff with hw | hoff
      · exact .inl hw
      · exact .inr (by omega)
    rw [step_of_regWrite h hc]
    by_cases hr : w ≠ .word ∨ off % 4 ≠ 0
    · rw [regWrite_of_refused (.inl hr)]
    · obtain ⟨rfl, hal⟩ : w = .word ∧ off % 4 = 0 := by simpa [not_or] using hr
      have hro : off = 0x04 ∨ 0x1C ≤ off := by simpa [hal] using hoff
      rw [regWrite_of_readOnly (hro.imp_left Nat.le_of_eq)]

/-! ## Request registers -/

/-- A write the register block serves: the register at the offset stores the value, capped or masked (10_state R28 to
R32). -/
theorem regWrite_of_served {off : Nat} {s : State} (h : off % 4 = 0) (hb : s.status.busy = false) (v : Word) :
    (off = 0x08 → regWrite .word off v s = { s with inLen := BitVec.ofNat 32 (min v.toNat s.cfg.inCapacity) }) ∧
    (off = 0x0C → regWrite .word off v s = { s with reqSlice := v }) ∧
    (off = 0x10 → regWrite .word off v s = { s with reqWidth := v }) ∧
    (off = 0x14 → regWrite .word off v s = { s with reqHeight := v }) ∧
    (off = 0x18 → regWrite .word off v s = { s with reqFlags := v &&& 1 }) := by
  have hn : ¬ (registerAccess .word off = false ∨ s.status.busy = true) := by simp [registerAccess_word h, hb]
  unfold regWrite
  rw [if_neg hn]
  refine ⟨?_, ?_, ?_, ?_, ?_⟩ <;> rintro rfl <;> rfl

/-- IN_LEN holds the capped length exactly. -/
theorem toNat_capped (v : Word) (cap : Nat) : (BitVec.ofNat 32 (min v.toNat cap)).toNat = min v.toNat cap := by
  have hv := v.isLt
  rw [BitVec.toNat_ofNat, Nat.mod_eq_of_lt (by omega)]

theorem toNat_and_one (v : Word) : (v &&& 1).toNat = v.toNat % 2 := by
  rw [BitVec.toNat_and]
  exact Nat.and_one_is_mod _

/-- Settles O46: the write the block serves, register by register. -/
theorem requestRegisterWrites : Obligations.RequestRegisterWrites := by
  intro s off v rest hb h
  have hstep (h0 : off ≠ 0) : step s = .next (regWrite .word off v { s with turns := rest }) :=
    step_of_regWrite h (.inr h0)
  have served (hal : off % 4 = 0) := regWrite_of_served (s := { s with turns := rest }) hal hb v
  refine ⟨fun ho => ?_, fun ho => ?_, fun ho => ?_, fun ho => ?_, fun ho => ?_⟩ <;>
    obtain ⟨hlen, hslice, hwidth, hheight, hflags⟩ := served (by omega) <;> have he := hstep (by omega)
  · exact ⟨_, he.trans (congrArg _ (hlen ho)), toNat_capped v _, rfl⟩
  · exact he.trans (congrArg _ (hslice ho))
  · exact he.trans (congrArg _ (hwidth ho))
  · exact he.trans (congrArg _ (hheight ho))
  · exact ⟨_, he.trans (congrArg _ (hflags ho)), toNat_and_one v, rfl⟩

/-! ## Reset -/

/-- Settles O53: the reset turn's own effect. -/
theorem resetClearsTheCore : Obligations.ResetClearsTheCore := by
  intro s rest h
  refine ⟨applyReset { s with turns := rest }, step_of_moved (nextMove_of_rst h), ?_⟩
  exact ⟨rfl, rfl, rfl, rfl, rfl, rfl, rfl, rfl, rfl, rfl, rfl, rfl, rfl, rfl, rfl, rfl, rfl, Memory.read_nil,
    Memory.read_nil, rfl, rfl⟩

/-! ## The write lock -/

/-- What a DECODE reads and no step but a HOST write or reset changes (10_state R36): IN, IN_LEN, the request registers,
the parameters and the reset epoch. -/
structure OperandsKept (s t : State) : Prop where
  cfg : t.cfg = s.cfg
  epoch : t.epoch = s.epoch
  inMem : t.inMem = s.inMem
  inLen : t.inLen = s.inLen
  reqSlice : t.reqSlice = s.reqSlice
  reqWidth : t.reqWidth = s.reqWidth
  reqHeight : t.reqHeight = s.reqHeight
  reqFlags : t.reqFlags = s.reqFlags

theorem OperandsKept.refl (s : State) : OperandsKept s s := ⟨rfl, rfl, rfl, rfl, rfl, rfl, rfl, rfl⟩

theorem operandsKept_parsePhase (s : State) : OperandsKept s (parsePhase s) := by
  by_cases hp : s.phase = .parse
  · obtain ⟨f, -, he⟩ | ⟨-, he⟩ := parsePhase_cases hp <;> rw [he] <;> exact ⟨rfl, rfl, rfl, rfl, rfl, rfl, rfl, rfl⟩
  · rw [parsePhase_of_ne hp]
    exact .refl s

theorem operandsKept_resolvePhase (s : State) : OperandsKept s (resolvePhase s) := by
  by_cases hp : s.phase = .resolve
  · obtain ⟨-, he⟩ | ⟨-, he⟩ | ⟨-, -, -, he⟩ := resolvePhase_cases hp <;> rw [he] <;>
      exact ⟨rfl, rfl, rfl, rfl, rfl, rfl, rfl, rfl⟩
  · rw [resolvePhase_of_ne hp]
    exact .refl s

theorem operandsKept_locatePhase (s : State) : OperandsKept s (locatePhase s) := by
  by_cases hp : s.phase = .locate
  · obtain ⟨-, he⟩ | ⟨r, -, he⟩ := locatePhase_cases hp <;> rw [he]
    · exact ⟨rfl, rfl, rfl, rfl, rfl, rfl, rfl, rfl⟩
    · obtain ⟨-, he⟩ | ⟨-, he⟩ := foundSlice_cases r s <;> rw [he] <;>
        exact ⟨rfl, rfl, rfl, rfl, rfl, rfl, rfl, rfl⟩
  · rw [locatePhase_of_ne hp]
    exact .refl s

theorem operandsKept_allocPhase (s : State) : OperandsKept s (allocPhase s) := by
  by_cases hp : s.phase = .alloc
  · obtain ⟨-, he⟩ | ⟨-, he⟩ := allocPhase_cases hp <;> rw [he] <;> exact ⟨rfl, rfl, rfl, rfl, rfl, rfl, rfl, rfl⟩
  · rw [allocPhase_of_ne hp]
    exact .refl s

theorem operandsKept_alphaPhase {s t : State} (h : alphaPhase s = .next t) : OperandsKept s t := by
  by_cases hp : s.phase = .alpha
  · obtain ⟨-, he⟩ | ⟨-, -, he⟩ | ⟨-, -, he⟩ := alphaPhase_cases hp <;> cases he.symm.trans h <;>
      exact ⟨rfl, rfl, rfl, rfl, rfl, rfl, rfl, rfl⟩
  · cases (alphaPhase_of_ne hp).symm.trans h
    exact .refl s

theorem operandsKept_finishPhase (s : State) : OperandsKept s (finishPhase s) := by
  by_cases hp : s.phase = .finish
  · rw [finishPhase_of_eq hp]
    exact ⟨rfl, rfl, rfl, rfl, rfl, rfl, rfl, rfl⟩
  · rw [finishPhase_of_ne hp]
    exact .refl s

theorem operandsKept_afterBlock (px : List Pixel) (s : State) : OperandsKept s (afterBlock px s) := by
  constructor <;> simp [afterBlock]

theorem operandsKept_blockStep {s t : State} {i : Instr} (hf : fetchBlock s = .ok i) (h : blockStep s = .next t) :
    OperandsKept s t := by
  have he : execBlock i s = .next t := by rwa [blockStep, hf] at h
  obtain ⟨f, -, hfail⟩ | ⟨px, hpx⟩ := blockEnds_execBlock (fetchBlock_ne_decode hf) s
  · cases hfail.symm.trans he
    exact ⟨rfl, rfl, rfl, rfl, rfl, rfl, rfl, rfl⟩
  · obtain ⟨-, rfl⟩ := finishBlock_next (hpx.symm.trans he)
    exact operandsKept_afterBlock px s

theorem operandsKept_engineMove {s t : State} (h : engineMove s = .moved t) : OperandsKept s t := by
  cases hp : s.phase with
  | idle => cases (engineMove_idle hp).symm.trans h; exact .refl s
  | parse => cases (engineMove_parse hp).symm.trans h; exact operandsKept_parsePhase s
  | resolve => cases (engineMove_resolve hp).symm.trans h; exact operandsKept_resolvePhase s
  | locate => cases (engineMove_locate hp).symm.trans h; exact operandsKept_locatePhase s
  | alloc => cases (engineMove_alloc hp).symm.trans h; exact operandsKept_allocPhase s
  | decode =>
    cases hf : fetchBlock s with
    | error f => cases (engineMove_decode_stop hp hf).symm.trans h
    | ok i => cases (engineMove_decode hp hf).symm.trans h
  | alpha =>
    cases ha : alphaPhase s with
    | next u => cases (engineMove_alpha hp ha).symm.trans h; exact operandsKept_alphaPhase ha
    | fault f => simp [engineMove, hp, ha] at h
    | refused r =>
      simp only [engineMove, hp, ha] at h
      cases h
      exact .refl s
  | finish => cases (engineMove_finish hp).symm.trans h; exact operandsKept_finishPhase s

/-- An ENGINE step changes no operand, BUSY or not. -/
theorem operandsKept_engineStep {s u t : State} (hm : nextMove s = engineMove u) (ht : step s = .next t) :
    OperandsKept u t := by
  obtain hmoved | ⟨i, v, hrun, hexec⟩ := step_next_cases ht
  · exact operandsKept_engineMove (hm.symm.trans hmoved)
  · obtain ⟨-, hf, rfl⟩ := engineMove_run (hm.symm.trans hrun)
    exact operandsKept_blockStep hf ((blockStep_of_fetch hf).trans hexec)

/-- While BUSY only the reset input changes an operand. -/
theorem operandsKept_step {s t : State} (hb : s.status.busy = true) (hr : s.turns.head? ≠ some .rst)
    (ht : step s = .next t) : OperandsKept s t := by
  obtain ⟨-, hm⟩ | ⟨n, rest, -, hm⟩ | ⟨rest, -, he⟩ | ⟨rest, hs, -⟩ | ⟨a, rest, -, -, he⟩ | ⟨v, rest, hs, hv, -⟩ :=
    nextTurn_cases s
  · exact operandsKept_engineStep hm ht
  · have h := operandsKept_engineStep hm ht
    exact ⟨h.cfg, h.epoch, h.inMem, h.inLen, h.reqSlice, h.reqWidth, h.reqHeight, h.reqFlags⟩
  · cases he.symm.trans ht
    exact ⟨rfl, rfl, rfl, rfl, rfl, rfl, rfl, rfl⟩
  · exact absurd (by rw [hs]; rfl) hr
  · rw [hostAccess_of_busy (s := { s with turns := rest }) hb] at he
    cases he.symm.trans ht
    exact ⟨rfl, rfl, rfl, rfl, rfl, rfl, rfl, rfl⟩
  · cases (step_of_start_busy hb hs hv).symm.trans ht
    exact ⟨rfl, rfl, rfl, rfl, rfl, rfl, rfl, rfl⟩

/-- A HOST write is ignored while BUSY (10_state R36). -/
theorem step_of_write_busy {s : State} {a : HostAccess} {rest : List Turn} (hb : s.status.busy = true)
    (h : s.turns = .access a :: rest) (ha : ∃ w off v, a = .regWrite w off v ∨ a = .inWrite w off v) :
    step s = .next { s with turns := rest } := by
  cases hc : commandOf a with
  | some i =>
    obtain ⟨v, rfl, hv, -⟩ := commandOf_eq_some hc
    exact step_of_start_busy hb h hv
  | none =>
    rw [step_of_access h hc]
    obtain ⟨w, off, v, rfl | rfl⟩ := ha
    · rw [hostAccess, regWrite_of_refused (s := { s with turns := rest }) (.inr hb)]
    · obtain ⟨-, he⟩ | ⟨hidle, -⟩ := inWrite_cases w off v { s with turns := rest }
      · rw [hostAccess, he]
      · exact absurd (hidle.symm.trans hb) Bool.false_ne_true

/-- Settles O47: ignored writes, and the operands every other step keeps. -/
theorem writeLockWhileBusy : Obligations.WriteLockWhileBusy := by
  refine ⟨fun s a rest => step_of_write_busy, fun s t hb hr ht => ?_⟩
  have h := operandsKept_step hb hr ht
  exact ⟨h.inMem, h.inLen, h.reqSlice, h.reqWidth, h.reqHeight, h.reqFlags⟩

end Sys2Proof.Machine
end

section
/-! A whole DECODE, said once: the walk of the chain in closed form, the machine's parser, resolver and locator as the
rules of `Sys2Proof.Rule`, the endings a DECODE can have (`DecodeEnding`), and that it has one of them from
every state. -/

namespace Sys2Proof.Machine

/-! ## The walk of the chain -/

theorem matchLevel_of_ne {s : State} {f : Nat} (h : f ≠ s.reqSlice.toNat) (L : Nat) : matchLevel s f L = false := by
  simp [matchLevel, h]

/-- A walk over levels that meets a match stops there, behind the levels below it. -/
theorem walkLevels_of_match {s : State} {f n L pos m : Nat} (hm : m < n) (hmatch : matchLevel s f (L + m) = true)
    (hno : ∀ k, k < m → matchLevel s f (L + k) = false) :
    walkLevels s f n L pos =
      .ok (locatedAt s f (L + m) (pos + ((List.range m).map fun k => sizeOfLevel s (L + k)).sum)) := by
  induction m generalizing n L pos with
  | zero =>
    obtain ⟨n, rfl⟩ := Nat.exists_eq_succ_of_ne_zero (Nat.ne_of_gt hm)
    rw [Nat.add_zero] at hmatch
    rw [walkLevels, if_pos hmatch]
    rfl
  | succ m ih =>
    obtain ⟨n, rfl⟩ := Nat.exists_eq_succ_of_ne_zero (Nat.ne_of_gt (Nat.zero_lt_of_lt hm))
    have hshift (k : Nat) : L + 1 + k = L + (k + 1) := by omega
    rw [walkLevels, if_neg (by simpa using hno 0 (Nat.succ_pos m)),
      ih (L := L + 1) (by omega) (by rwa [hshift]) fun k hk => by rw [hshift]; exact hno (k + 1) (by omega),
      List.range_succ_eq_map]
    simp only [List.map_cons, List.map_map, List.sum_cons, Function.comp_def, Nat.succ_eq_add_one, hshift,
      Nat.add_zero, Nat.add_assoc]

/-- The bytes of the levels below `L` (40_container R147). -/
def bytesBelow (s : State) (L : Nat) : Nat := ((List.range L).map (sizeOfLevel s)).sum

/-- The first level of the requested face that matches the request, if any (40_container R141). -/
def firstMatch (s : State) : Option Nat :=
  if s.reqSlice.toNat < sliceCount s.parse then
    (List.range s.parse.mips).find? (matchLevel s s.reqSlice.toNat)
  else none

/-- The locator registers at level `L` of the requested face, when the faces before the requested one and the levels
below `L` lie between `pos` and the slice. -/
def foundAt (s : State) (pos L : Nat) : LocateRegs := locatedAt s s.reqSlice.toNat L (pos + bytesBelow s L)

/-- The walk over the requested face. -/
theorem walkLevels_requested (s : State) (pos : Nat) :
    walkLevels s s.reqSlice.toNat s.parse.mips 0 pos =
      match (List.range s.parse.mips).find? (matchLevel s s.reqSlice.toNat) with
      | some L => .ok (foundAt s pos L)
      | none => .error (pos + bytesBelow s s.parse.mips) := by
  have hzero : (fun k => sizeOfLevel s (0 + k)) = sizeOfLevel s := by simp only [Nat.zero_add]
  cases hf : (List.range s.parse.mips).find? (matchLevel s s.reqSlice.toNat) with
  | none =>
    rw [List.find?_range_eq_none] at hf
    rw [walkLevels_of_no_match fun k hk => by simpa using hf k hk, hzero]
    rfl
  | some L =>
    obtain ⟨hmatch, hL, hno⟩ := List.find?_range_eq_some.1 hf
    rw [walkLevels_of_match (List.mem_range.1 hL) (by rwa [Nat.zero_add]) fun k hk => by simpa using hno k hk, hzero,
      Nat.zero_add]
    rfl

/-- The walk over a face that is not requested only moves the cursor. -/
theorem walkLevels_of_ne {s : State} {f : Nat} (h : f ≠ s.reqSlice.toNat) (pos : Nat) :
    walkLevels s f s.parse.mips 0 pos = .error (pos + bytesBelow s s.parse.mips) := by
  rw [walkLevels_of_no_match fun k _ => matchLevel_of_ne h _]
  simp only [Nat.zero_add]
  rfl

/-- The walk finds nothing in faces that are not requested. -/
theorem walkFaces_of_ne {s : State} {n f : Nat} (h : ∀ k, k < n → f + k ≠ s.reqSlice.toNat) (pos : Nat) :
    walkFaces s n f pos = none := by
  induction n generalizing f pos with
  | zero => rfl
  | succ n ih =>
    rw [walkFaces, walkLevels_of_ne (f := f) (h 0 (Nat.succ_pos n))]
    exact ih (fun k hk => by rw [Nat.add_right_comm, Nat.add_assoc]; exact h (k + 1) (by omega)) _

/-- The walk over the faces left, `d` of them before the requested one: each of those adds its bytes and the gap. -/
theorem walkFaces_requested {s : State} {n f d : Nat} (hd : f + d = s.reqSlice.toNat) (hn : d < n)
    (hc : f + n = sliceCount s.parse) (pos : Nat) :
    walkFaces s n f pos = ((List.range s.parse.mips).find? (matchLevel s s.reqSlice.toNat)).map
      (foundAt s (pos + d * (bytesBelow s s.parse.mips + s.cfg.faceGap))) := by
  induction d generalizing n f pos with
  | zero =>
    obtain ⟨n, rfl⟩ := Nat.exists_eq_succ_of_ne_zero (Nat.ne_of_gt hn)
    obtain rfl : f = s.reqSlice.toNat := hd
    rw [walkFaces, walkLevels_requested, Nat.zero_mul, Nat.add_zero]
    cases (List.range s.parse.mips).find? (matchLevel s s.reqSlice.toNat) with
    | some L => rfl
    | none => exact walkFaces_of_ne (fun k _ => by omega) _
  | succ d ih =>
    obtain ⟨n, rfl⟩ := Nat.exists_eq_succ_of_ne_zero (Nat.ne_of_gt (Nat.zero_lt_of_lt hn))
    rw [walkFaces, walkLevels_of_ne (by omega)]
    dsimp only
    rw [if_pos (by omega), ih (by omega) (by omega) (by omega), Nat.succ_mul]
    congr 2
    omega

/-- The walk of the whole chain in closed form (40_container R147). -/
theorem walkChain_eq (s : State) :
    walkChain s = (firstMatch s).map
      (foundAt s (s.parse.hl + s.reqSlice.toNat * (bytesBelow s s.parse.mips + s.cfg.faceGap))) := by
  unfold walkChain firstMatch
  split
  · next h => exact walkFaces_requested (Nat.zero_add _) h (Nat.zero_add _) _
  · next h => exact walkFaces_of_ne (fun k hk => by omega) _

/-! ## The parser and the resolver as the rules -/

theorem inWord_eq_iff (s : State) (addr : Nat) (w : Word) : inWord s addr = w ↔ inRead s addr 4 = w.toNat := by
  rw [← inWord_toNat, BitVec.toNat_inj]

theorem fourccValid_inWord (s : State) (addr : Nat) : fourccValid (inWord s addr) = (inRead s addr 4).testBit 2 := by
  rw [fourccValid, BitVec.getLsbD, inWord_toNat]

theorem streamHasDx10_eq (s : State) : streamHasDx10 s = Rule.dx10 s := by
  have h : (inWord s 84 == fourccDx10) = (inRead s 84 4 == 0x30315844) := by
    rw [Bool.eq_iff_iff, beq_iff_eq, beq_iff_eq]
    exact inWord_eq_iff s 84 fourccDx10
  rw [streamHasDx10, announcesDx10, fourccValid_inWord, h]
  rfl

/-- PARSE fails exactly when the header is not whole (40_container R120, R121). -/
theorem parseFailure_eq_none_iff (s : State) : parseFailure s = none ↔ Rule.HeaderWhole s := by
  rw [parseFailure_eq_none, streamHasDx10_eq, inWord_eq_iff]
  rfl

/-- The DX10 path by ranges of codes (40_container R130). -/
theorem resolveDxgi_format (cfg : Params) (code : Nat) : (resolveDxgi cfg code).1 = Rule.dxgiFormat cfg code := by
  have hdxt1 : (70 ≤ code ∧ code ≤ 72) = (code ∈ [70, 71, 72]) := by simp; omega
  have hdxt3 : (73 ≤ code ∧ code ≤ 75) = (code ∈ [73, 74, 75]) := by simp; omega
  have hdxt5 : (76 ≤ code ∧ code ≤ 78) = (code ∈ [76, 77, 78]) := by simp; omega
  have hbc7 : (97 ≤ code ∧ code ≤ 99) = (code ∈ [97, 98] ∨ code = 99) := by simp; omega
  have hunsupported : ((79 ≤ code ∧ code ≤ 84) ∨ (94 ≤ code ∧ code ≤ 96)) =
      (code ∈ [79, 80, 81, 82, 83, 84, 94, 95, 96]) := by simp; omega
  have huncompressed : (code = 68 ∨ code = 69 ∨ 0 < bppOf cfg.bppTable code) =
      (code ∈ [68, 69] ∨ bppOf cfg.bppTable code > 0) := by simp [or_assoc]
  unfold resolveDxgi Rule.dxgiFormat
  simp only [apply_ite Prod.fst, hdxt1, hdxt3, hdxt5, hbc7, hunsupported, huncompressed, ite_or]

/-- The DX10 path gives SRGB for code 99 alone (40_container R130). -/
theorem resolveDxgi_srgb (cfg : Params) (code : Nat) : (resolveDxgi cfg code).2 = (code == 99) := by
  by_cases h : code = 99
  · rw [h]
    rfl
  · simp [resolveDxgi, apply_ite Prod.snd, h]

/-- The FourCC path (40_container R131). -/
theorem resolveFourCC_eq (cfg : Params) (fcc : Word) : resolveFourCC cfg fcc = Rule.fourccFormat cfg fcc := by
  unfold resolveFourCC Rule.fourccFormat
  simp only [← BitVec.toNat_inj, BitVec.reduceToNat]

/-- The resolver on the parse registers of a whole header is the rule's (40_container R129 to R132). -/
theorem resolveFormat_parsedRegs (s : State) :
    resolveFormat s.cfg (parsedRegs s) = (Rule.format s, Rule.srgb s) := by
  simp only [resolveFormat, parsedRegs, streamHasDx10_eq, Rule.format, Rule.srgb, fourccValid_inWord, inWord_toNat]
  cases hd : Rule.dx10 s with
  | true =>
    simp only [if_true, Bool.true_and, inWord_toNat]
    rw [← resolveDxgi_format, ← resolveDxgi_srgb s.cfg]
  | false =>
    simp only [Bool.false_eq_true, if_false, Bool.false_and, resolveFourCC_eq]
    split
    · rfl
    · split <;> rfl

/-- SRGB comes with BC7 alone (40_container R130). -/
theorem format_of_srgb {s : State} (h : Rule.srgb s = true) : Rule.format s = .bc7 := by
  obtain ⟨hdx10, hcode⟩ : Rule.dx10 s = true ∧ inRead s 128 4 = 99 := by simpa [Rule.srgb] using h
  rw [Rule.format, if_pos hdx10, hcode]
  rfl

/-! ## The states of a DECODE -/

/-- Behind PARSE, when the header is whole. -/
def headerState (s : State) : State :=
  { startDecode s with
    parse := parsedRegs (startDecode s)
    hdr := mirroredHeader (startDecode s)
    loc := { s.loc with pos := headerLength (streamHasDx10 (startDecode s)) }
    phase := .resolve }

/-- The resolver registers written, nothing else of RESOLVE done. -/
def formatState (s : State) : State :=
  { headerState s with
    loc := { (headerState s).loc with
      fmt := Rule.format s, srgb := Rule.srgb s, bs := blockBytesOf (Rule.format s) s.loc.bs } }

/-- Behind RESOLVE, or with OUT_FORMAT written before it fails (40_container R137). -/
def resolvedState (s : State) (phase : Phase) : State :=
  { formatState s with outFormat := outFormatWord (Rule.format s) (Rule.srgb s), phase := phase }

/-- With the slice of level `L` found (40_container R143). -/
def sliceState (s : State) (L : Nat) : State :=
  writeSlice (locatedAt (resolvedState s .locate) s.reqSlice.toNat L (Rule.slicePos s L)) (resolvedState s .locate)

/-- Behind ALLOC, at block 0 of level `L` (44_raster R253). -/
def rasterState (s : State) (L : Nat) : State :=
  { sliceState s L with
    ras := { (sliceState s L).ras with
      BW := blocksAlong (sliceState s L).ras.W, BH := blocksAlong (sliceState s L).ras.H, blkX := 0, blkY := 0 }
    phase := .decode }

/-- The format has a block decoder: RESOLVE goes on to LOCATE. -/
abbrev HasDecoder (s : State) : Prop :=
  Rule.format s ≠ .passThrough ∧ Rule.format s ≠ .unsupported ∧ Rule.format s ≠ .uncompressed

/-- What a DECODE from `s` can come to, up to its blocks: the endings of PARSE, RESOLVE, LOCATE and ALLOC, or the run of
the raster phases from a named state. -/
inductive DecodeEnding (s t : State) : Prop
  | badHeader (f : Failure) (hh : ¬ Rule.HeaderWhole s) (hf : parseFailure (startDecode s) = some f)
      (ht : t = raiseFail f (startDecode s))
  | passThrough (hh : Rule.HeaderWhole s) (hfmt : Rule.format s = .passThrough)
      (ht : t = completePassThrough (formatState s))
  | noDecoder (hh : Rule.HeaderWhole s) (hfmt : Rule.format s = .unsupported ∨ Rule.format s = .uncompressed)
      (ht : t = raiseFail .unsupported (resolvedState s .resolve))
  | notFound (hh : Rule.HeaderWhole s) (hfmt : HasDecoder s) (hl : Rule.level s = none)
      (ht : t = raiseFail .notFound (resolvedState s .locate))
  | io (L : Nat) (hh : Rule.HeaderWhole s) (hfmt : HasDecoder s) (hl : Rule.level s = some L)
      (hend : s.inLen.toNat < Rule.slicePos s L + Rule.size s L) (ht : t = raiseFail .io (sliceState s L))
  | capacity (L : Nat) (hh : Rule.HeaderWhole s) (hfmt : HasDecoder s) (hl : Rule.level s = some L)
      (hend : Rule.slicePos s L + Rule.size s L ≤ s.inLen.toNat)
      (hcap : s.cfg.outCapacity < 4 * Rule.width s L * Rule.height s L)
      (ht : t = raiseFail .capacity { sliceState s L with phase := .alloc })
  | raster (L : Nat) (hh : Rule.HeaderWhole s) (hfmt : HasDecoder s) (hl : Rule.level s = some L)
      (hend : Rule.slicePos s L + Rule.size s L ≤ s.inLen.toNat)
      (hcap : 4 * Rule.width s L * Rule.height s L ≤ s.cfg.outCapacity)
      (ht : runRaster (rasterState s L) = .next t)

/-! ## The locator as the rule -/

theorem inWord_startDecode (s : State) (addr : Nat) : inWord (startDecode s) addr = inWord s addr :=
  congrArg (BitVec.ofNat 32) (inRead_congr fun _ _ _ => rfl)

theorem resolvedState_parse (s : State) (p : Phase) : (resolvedState s p).parse = parsedRegs (startDecode s) := rfl

theorem levelDim_baseW (s : State) (p : Phase) (L : Nat) :
    levelDim (resolvedState s p).parse.baseW L = Rule.width s L :=
  congrArg (max 1) (Nat.shiftRight_eq_div_pow _ _)

theorem levelDim_baseH (s : State) (p : Phase) (L : Nat) :
    levelDim (resolvedState s p).parse.baseH L = Rule.height s L :=
  congrArg (max 1) (Nat.shiftRight_eq_div_pow _ _)

/-- `bs` behind RESOLVE is the rule's. -/
theorem blockBytesOf_format {s : State} (h : HasDecoder s) (old : Nat) :
    blockBytesOf (Rule.format s) old = Rule.blockBytes s := by
  obtain ⟨hpt, hun, hunc⟩ := h
  have hnone : Rule.format s ≠ .none := by
    have := resolveFormat_ne_none s.cfg (parsedRegs s)
    rwa [resolveFormat_parsedRegs] at this
  unfold Rule.blockBytes
  cases hf : Rule.format s with
  | none => exact absurd hf hnone
  | passThrough => exact absurd hf hpt
  | unsupported => exact absurd hf hun
  | uncompressed => exact absurd hf hunc
  | dxt1 | dxt3 | dxt5 | bc7 => rfl

theorem width_pos (s : State) (L : Nat) : 1 ≤ Rule.width s L := Nat.le_max_left _ _

theorem sizeOfLevel_eq {s : State} (h : HasDecoder s) (p : Phase) (L : Nat) :
    sizeOfLevel (resolvedState s p) L = Rule.size s L := by
  rw [sizeOfLevel, levelDim_baseW, levelDim_baseH, levelSize_eq (width_pos s L)]
  exact congrArg _ (blockBytesOf_format h _)

theorem bytesBelow_eq {s : State} (h : HasDecoder s) (p : Phase) (L : Nat) :
    bytesBelow (resolvedState s p) L = Rule.levelsBelow s L := by
  unfold bytesBelow Rule.levelsBelow
  rw [funext (sizeOfLevel_eq h p)]

theorem mips_eq (s : State) (p : Phase) : (resolvedState s p).parse.mips = Rule.mips s := by
  simp only [resolvedState_parse, parsedRegs, inWord_startDecode, normaliseMips, inWord_toNat, Rule.mips]
  split <;> omega

theorem sliceCount_eq (s : State) (p : Phase) : sliceCount (resolvedState s p).parse = Rule.faces s := by
  simp only [sliceCount, resolvedState_parse, parsedRegs, inWord_startDecode, isCubemap, BitVec.getLsbD, inWord_toNat,
    Rule.faces, Rule.cubemap]
  rfl

theorem hl_eq (s : State) (p : Phase) : (resolvedState s p).parse.hl = Rule.headerLength s := by
  rw [resolvedState_parse, parsedRegs, streamHasDx10_eq, headerLength]
  rfl

/-- A level of the requested face matches when the request is unset and it is level 0, or when it has the requested
size (40_container R141). -/
theorem matchLevel_requested (s : State) (p : Phase) (L : Nat) :
    matchLevel (resolvedState s p) s.reqSlice.toNat L =
      if Rule.unset s then decide (L = 0)
      else decide (s.reqWidth.toInt = Rule.width s L) && decide (s.reqHeight.toInt = Rule.height s L) := by
  have hreq : (resolvedState s p).reqSlice = s.reqSlice := rfl
  have hunset : wantBase (resolvedState s p) = Rule.unset s := Bool.decide_or _ _
  have hwidth : sext32 (resolvedState s p).reqWidth = s.reqWidth.toInt := rfl
  have hheight : sext32 (resolvedState s p).reqHeight = s.reqHeight.toInt := rfl
  rw [matchLevel, hreq, hunset, levelDim_baseW, levelDim_baseH, hwidth, hheight]
  cases Rule.unset s <;> simp

/-- The first match of the walk is the rule's level (40_container R141, R147). -/
theorem firstMatch_eq (s : State) (p : Phase) : firstMatch (resolvedState s p) = Rule.level s := by
  have hreq : (resolvedState s p).reqSlice = s.reqSlice := rfl
  rw [firstMatch, hreq, sliceCount_eq, mips_eq, funext (matchLevel_requested s p), Rule.level]
  split
  · cases hu : Rule.unset s with
    | true =>
      rw [if_pos rfl, List.find?_range_eq_some]
      exact ⟨rfl, List.mem_range.2 (Nat.lt_of_lt_of_le Nat.one_pos (Nat.le_max_left _ _)), fun j hj => by omega⟩
    | false => rfl
  · rfl

/-- LOCATE walks to the rule's level and slice position. -/
theorem walkChain_resolvedState {s : State} (h : HasDecoder s) :
    walkChain (resolvedState s .locate) = (Rule.level s).map fun L =>
      locatedAt (resolvedState s .locate) s.reqSlice.toNat L (Rule.slicePos s L) := by
  rw [walkChain_eq, firstMatch_eq]
  congr 1
  funext L
  rw [foundAt, bytesBelow_eq h, bytesBelow_eq h, hl_eq, mips_eq]
  rfl

/-! ## The run up to the blocks -/

/-- Once a DECODE has ended, the phases left do nothing. -/
theorem runDecode_of_ended {s : State} (h : s.phase = .idle) :
    resolvePhase s = s ∧ locatePhase s = s ∧ runRaster (allocPhase s) = .next s := by
  refine ⟨resolvePhase_of_ne (by simp [h]), locatePhase_of_ne (by simp [h]), ?_⟩
  rw [allocPhase_of_ne (by simp [h]), runRaster, if_neg (by simp [h])]

/-- LOCATE and what follows it. -/
theorem ending_of_locate {s t : State} (hh : Rule.HeaderWhole s) (hfmt : HasDecoder s)
    (ht : runRaster (allocPhase (locatePhase (resolvedState s .locate))) = .next t) : DecodeEnding s t := by
  have hwalk := walkChain_resolvedState hfmt
  obtain ⟨hnone, he⟩ | ⟨r, hr, he⟩ := locatePhase_cases (s := resolvedState s .locate) rfl <;> rw [he] at ht
  · rw [(runDecode_of_ended rfl).2.2] at ht
    rw [hnone] at hwalk
    cases ht
    exact .notFound hh hfmt (Option.map_eq_none_iff.1 hwalk.symm) rfl
  · rw [hr] at hwalk
    obtain ⟨L, hl, rfl⟩ := Option.map_eq_some_iff.1 hwalk.symm
    have hsize := sizeOfLevel_eq hfmt .locate L
    obtain ⟨hend, he⟩ | ⟨hend, he⟩ := foundSlice_cases
      (locatedAt (resolvedState s .locate) s.reqSlice.toNat L (Rule.slicePos s L)) (resolvedState s .locate) <;>
      rw [he] at ht <;> simp only [locatedAt, hsize] at hend
    · rw [(runDecode_of_ended rfl).2.2] at ht
      cases ht
      exact .io L hh hfmt hl hend rfl
    · have hbytes : rasterBytes { sliceState s L with phase := .alloc } = 4 * Rule.width s L * Rule.height s L :=
        congrArg₂ (4 * · * ·) (levelDim_baseW s .locate L) (levelDim_baseH s .locate L)
      obtain ⟨hcap, ha⟩ | ⟨hcap, ha⟩ := allocPhase_cases (s := { sliceState s L with phase := .alloc }) rfl <;>
        rw [hbytes] at hcap
      · exact .raster L hh hfmt hl hend hcap ((congrArg runRaster ha).symm.trans ht)
      · have hended := (congrArg runRaster ha).symm.trans ht
        rw [runRaster, if_neg Phase.noConfusion] at hended
        cases hended
        exact .capacity L hh hfmt hl hend hcap rfl

/-- RESOLVE and what follows it. -/
theorem ending_of_resolve {s t : State} (hh : Rule.HeaderWhole s)
    (ht : runRaster (allocPhase (locatePhase (resolvePhase (headerState s)))) = .next t) : DecodeEnding s t := by
  have hres : resolveFormat (headerState s).cfg (headerState s).parse = (Rule.format s, Rule.srgb s) :=
    resolveFormat_parsedRegs s
  have hcases := resolvePhase_cases (s := headerState s) rfl
  rw [hres] at hcases
  obtain ⟨hfmt, he⟩ | ⟨hfmt, he⟩ | ⟨h1, h2, h3, he⟩ := hcases <;> rw [he] at ht
  · obtain ⟨-, hloc, hrun⟩ := runDecode_of_ended (s := completePassThrough (formatState s)) rfl
    cases ((congrArg (fun u => runRaster (allocPhase u)) hloc).trans hrun).symm.trans ht
    exact .passThrough hh hfmt rfl
  · obtain ⟨-, hloc, hrun⟩ := runDecode_of_ended (s := raiseFail .unsupported (resolvedState s .resolve)) rfl
    cases ((congrArg (fun u => runRaster (allocPhase u)) hloc).trans hrun).symm.trans ht
    exact .noDecoder hh hfmt rfl
  · exact ending_of_locate hh ⟨h1, h2, h3⟩ ht

/-- Every DECODE that answers comes to one of its endings. -/
theorem decodeEnding_of_runDecode {s t : State} (ht : runDecode (startDecode s) = .next t) : DecodeEnding s t := by
  unfold runDecode at ht
  obtain ⟨f, hf, he⟩ | ⟨hf, he⟩ := parsePhase_cases (s := startDecode s) rfl <;> rw [he] at ht
  · obtain ⟨hres, hloc, hrun⟩ := runDecode_of_ended (s := raiseFail f (startDecode s)) rfl
    rw [hres, hloc, hrun] at ht
    cases ht
    refine .badHeader f (fun hh => ?_) hf rfl
    have := (parseFailure_eq_none_iff (startDecode s)).2 hh
    simp [hf] at this
  · exact ending_of_resolve ((parseFailure_eq_none_iff (startDecode s)).1 hf) ht

/-- A DECODE that nothing interrupts runs to its end. -/
theorem exec_decode_of_commanded {data : Word} {s : State} (h : Commanded data s) :
    exec (.decode data) s = runDecode (startDecode s) := by
  obtain ⟨hstart, hidle, hturns⟩ := h
  show execDecode data s = _
  simp [execDecode, hstart, hidle, hturns]

/-! ## Every DECODE answers -/

theorem runBlocks_answers {n : Nat} {s : State} (h : PhaseInv s) : ∃ t, runBlocks n s = .next t ∧ PhaseInv t := by
  induction n generalizing s with
  | zero => exact ⟨s, rfl, h⟩
  | succ n ih =>
    by_cases hp : s.phase = .decode
    · obtain ⟨u, hu, hinv⟩ := phaseInv_blockStep hp h
      rw [runBlocks_succ_next hp hu]
      exact ih hinv
    · exact ⟨s, runBlocks_of_ne hp, h⟩

theorem runRaster_answers {s : State} (h : PhaseInv s) : ∃ t, runRaster s = .next t := by
  unfold runRaster
  split
  · obtain ⟨u, hu, hinv⟩ := runBlocks_answers (n := s.ras.BW * s.ras.BH) h
    obtain ⟨v, hv, -⟩ := phaseInv_alphaPhase hinv
    rw [hu]
    dsimp only
    rw [hv]
    exact ⟨_, rfl⟩
  · exact ⟨s, rfl⟩

/-- A started DECODE answers, from any state. -/
theorem runDecode_answers (s : State) : ∃ t, runDecode (startDecode s) = .next t :=
  runRaster_answers (phaseInv_allocPhase (phaseInv_locatePhase (phaseInv_resolvePhase
    (phaseInv_parsePhase (phaseInv_of_parse rfl)))))

end Sys2Proof.Machine
end

section
/-! The raster phases of a DECODE, said once, and the result registers after every ending. -/

namespace Sys2Proof.Machine

/-! ## The raster phases -/

/-- What blocks and ALPHA leave alone: the frame of a block, and the dimensions of the image. -/
structure RasterFrame (s t : State) : Prop where
  frame : BlockFrame s t
  width : t.ras.W = s.ras.W
  height : t.ras.H = s.ras.H

theorem RasterFrame.refl (s : State) : RasterFrame s s := ⟨rfl, rfl, rfl⟩

theorem BlockFrame.trans {s t u : State} (h1 : BlockFrame s t) (h2 : BlockFrame t u) : BlockFrame s u := by
  unfold BlockFrame at h1 h2 ⊢
  rw [h1] at h2
  exact h2

theorem RasterFrame.trans {s t u : State} (h1 : RasterFrame s t) (h2 : RasterFrame t u) : RasterFrame s u :=
  ⟨h1.frame.trans h2.frame, h2.width.trans h1.width, h2.height.trans h1.height⟩

theorem rasterFrame_afterBlock (px : List Pixel) (s : State) : RasterFrame s (afterBlock px s) := by
  refine ⟨?_, by simp [afterBlock], by simp [afterBlock]⟩
  unfold BlockFrame afterBlock
  obtain ⟨-, he⟩ | ⟨-, -, he⟩ | ⟨-, -, he⟩ :=
    nextBlock_cases (releaseDatapath { s with outMem := writePixels s.ras s.outMem 0 px }) <;> rw [he] <;> rfl

/-- The next block's index is one more (44_raster R254). -/
theorem blockIndex_afterBlock {s : State} (h : RasterReady s) (px : List Pixel) :
    blockIndex (afterBlock px s) = blockIndex s + 1 := by
  obtain ⟨hx, -⟩ := h.current
  have hrow : (s.ras.blkY + 1) * s.ras.BW = s.ras.blkY * s.ras.BW + s.ras.BW := Nat.succ_mul _ _
  unfold afterBlock
  obtain ⟨-, he⟩ | ⟨hlast, -, he⟩ | ⟨hlast, -, he⟩ :=
    nextBlock_cases (releaseDatapath { s with outMem := writePixels s.ras s.outMem 0 px }) <;>
    rw [he] <;> simp only [blockIndex, releaseDatapath_ras] at *
  · omega
  · omega
  · omega

/-- The phase behind a block is DECODE with its registers ready, or ALPHA. -/
theorem afterBlock_phase {s : State} (hp : s.phase = .decode) (px : List Pixel) :
    (afterBlock px s).phase = .decode ∨ (afterBlock px s).phase = .alpha := by
  rw [afterBlock, nextBlock_phase]
  split
  · exact .inl hp
  · split
    · exact .inl hp
    · exact .inr rfl

/-- A run of blocks from `u` to `t` has ended with a structural failure of some block. -/
def BlockFailed (u t : State) : Prop :=
  ∃ f v, failureResult f = .errStructural ∧ RasterFrame u v ∧ t = raiseBlockFail f (blockIndex v) v

/-- Phase DECODE run for as many blocks as are left goes to ALPHA, or a block fails (44_raster R254, R256). -/
theorem runBlocks_ending {n : Nat} {s t : State} (hp : s.phase = .decode) (hs : SliceReady s) (hr : RasterReady s)
    (hn : blockIndex s + n = s.ras.BW * s.ras.BH) (h : runBlocks n s = .next t) :
    (t.phase = .alpha ∧ RasterFrame s t) ∨ BlockFailed s t := by
  induction n generalizing s with
  | zero =>
    have := blockIndex_lt hr
    omega
  | succ n ih =>
    obtain ⟨f, hf, he⟩ | ⟨px, he⟩ := blockStep_cases hs hr <;> rw [runBlocks_succ_next hp he] at h
    · cases (runBlocks_of_ne Phase.noConfusion).symm.trans h
      exact .inr ⟨f, s, hf, .refl s, rfl⟩
    · have hframe := rasterFrame_afterBlock px s
      obtain hp' | hp' := afterBlock_phase hp px
      · obtain ⟨hs', hr'⟩ := (phaseInv_decode_iff hp').1 (phaseInv_afterBlock hp hs hr px)
        have hcount : (afterBlock px s).ras.BW * (afterBlock px s).ras.BH = s.ras.BW * s.ras.BH := by simp [afterBlock]
        obtain ⟨hend, hfr⟩ | ⟨f, v, hf, hfr, ht⟩ :=
          ih hp' hs' hr' (by rw [blockIndex_afterBlock hr, hcount]; omega) h
        · exact .inl ⟨hend, hframe.trans hfr⟩
        · exact .inr ⟨f, v, hf, hframe.trans hfr, ht⟩
      · cases (runBlocks_of_ne (by simp [hp'])).symm.trans h
        exact .inl ⟨hp', hframe⟩

/-- The raster phases, from the first block on, complete with OK, or a block fails (44_raster R254 to R258). -/
theorem runRaster_ending {s t : State} (hp : s.phase = .decode) (hs : SliceReady s) (hr : RasterReady s)
    (h0 : blockIndex s = 0) (h : runRaster s = .next t) :
    (∃ v, RasterFrame s v ∧ t = completeOk v) ∨ BlockFailed s t := by
  obtain ⟨hne, -⟩ | ⟨u, v, -, hu, hv, rfl⟩ := runRaster_next h
  · exact absurd hp hne
  · obtain ⟨hpu, hframe⟩ | ⟨f, w, hf, hfr, rfl⟩ := runBlocks_ending hp hs hr (by rw [h0, Nat.zero_add]) hu
    · refine .inl ⟨v, ?_, finishPhase_of_eq ?_⟩ <;>
        obtain ⟨-, he⟩ | ⟨-, -, he⟩ | ⟨-, -, he⟩ := alphaPhase_cases hpu <;> cases he.symm.trans hv
      · exact hframe.trans ⟨rfl, rfl, rfl⟩
      · exact hframe.trans ⟨rfl, rfl, rfl⟩
      · rfl
      · rfl
    · cases (alphaPhase_of_ne Phase.noConfusion).symm.trans hv
      exact .inr ⟨f, w, hf, hfr, finishPhase_of_ne Phase.noConfusion⟩

/-! ## A DECODE with its blocks -/

theorem size_eq (s : State) (L : Nat) :
    Rule.size s L = blocksAlong (Rule.width s L) * blocksAlong (Rule.height s L) * Rule.blockBytes s := rfl

theorem height_pos (s : State) (L : Nat) : 1 ≤ Rule.height s L := Nat.le_max_left _ _

theorem width_lt (s : State) (L : Nat) : Rule.width s L < 2 ^ 32 := by
  rw [← levelDim_baseW s .locate]
  exact levelDim_lt (inRead_lt s 16 4)

theorem height_lt (s : State) (L : Nat) : Rule.height s L < 2 ^ 32 := by
  rw [← levelDim_baseH s .locate]
  exact levelDim_lt (inRead_lt s 12 4)

theorem rasterState_W (s : State) (L : Nat) : (rasterState s L).ras.W = Rule.width s L := levelDim_baseW s .locate L

theorem rasterState_H (s : State) (L : Nat) : (rasterState s L).ras.H = Rule.height s L := levelDim_baseH s .locate L

/-- SLICE_SIZE once the slice is found (40_container R143). -/
theorem sliceState_sliceSize {s : State} (h : HasDecoder s) (L : Nat) :
    (sliceState s L).sliceSize = sliceWord Config.unfitSize (Rule.size s L) :=
  congrArg (sliceWord Config.unfitSize) (sizeOfLevel_eq h .locate L)

/-- A slice inside the stream fits its registers. -/
theorem slice_lt {s : State} {L : Nat} (h : Rule.slicePos s L + Rule.size s L ≤ s.inLen.toNat) :
    Rule.slicePos s L < 2 ^ 32 ∧ Rule.size s L < 2 ^ 32 := by
  have := s.inLen.isLt
  omega

/-- The state the raster phases start from is ready for its blocks. -/
theorem rasterState_ready {s : State} {L : Nat} (hfmt : HasDecoder s)
    (hend : Rule.slicePos s L + Rule.size s L ≤ s.inLen.toNat)
    (hcap : 4 * Rule.width s L * Rule.height s L ≤ s.cfg.outCapacity) :
    SliceReady (rasterState s L) ∧ RasterReady (rasterState s L) := by
  have hW := rasterState_W s L
  have hH := rasterState_H s L
  obtain ⟨hpos, hsize⟩ := slice_lt hend
  have hnone : Rule.format s ≠ .none := by
    have := resolveFormat_ne_none s.cfg (parsedRegs s)
    rwa [resolveFormat_parsedRegs] at this
  have hoff : (rasterState s L).sliceOffset.toNat = Rule.slicePos s L := sliceWord_of_lt hpos
  have hlen : (rasterState s L).sliceSize.toNat = Rule.size s L :=
    (congrArg BitVec.toNat (sliceState_sliceSize hfmt L)).trans (sliceWord_of_lt hsize)
  have hbs : (rasterState s L).loc.bs = Rule.blockBytes s := blockBytesOf_format hfmt _
  refine ⟨⟨blockLength_blockBytesOf hnone hfmt.1 hfmt.2.1 hfmt.2.2 _, ?_, ?_, ?_, ?_⟩, ⟨rfl, rfl, ?_, ?_⟩⟩
  · rw [hW]
    exact ⟨width_pos s L, width_lt s L⟩
  · rw [hH]
    exact ⟨height_pos s L, height_lt s L⟩
  · rw [hlen, hW, hH, hbs, size_eq]
  · rw [hoff, hlen]
    exact hend
  · rw [rasterBytes, hW, hH]
    exact hcap
  · have hcols : (rasterState s L).ras.BW = blocksAlong (Rule.width s L) := congrArg blocksAlong hW
    have hrows : (rasterState s L).ras.BH = blocksAlong (Rule.height s L) := congrArg blocksAlong hH
    rw [hcols, hrows]
    exact ⟨blocksAlong_pos (width_pos s L), blocksAlong_pos (height_pos s L)⟩

/-- The raster phases of a DECODE: they complete with OK or a block fails, in the frame of the state they start from. -/
theorem rasterState_ending {s t : State} {L : Nat} (hfmt : HasDecoder s)
    (hend : Rule.slicePos s L + Rule.size s L ≤ s.inLen.toNat)
    (hcap : 4 * Rule.width s L * Rule.height s L ≤ s.cfg.outCapacity)
    (ht : runRaster (rasterState s L) = .next t) :
    (∃ v, RasterFrame (rasterState s L) v ∧ t = completeOk v) ∨ BlockFailed (rasterState s L) t := by
  obtain ⟨hslice, hraster⟩ := rasterState_ready hfmt hend hcap
  exact runRaster_ending rfl hslice hraster (by rw [blockIndex]; exact Nat.zero_mul _) ht

/-! ## The registers no block changes -/

/-- The result registers that the raster phases leave to ALLOC and the phases before it. -/
structure ResultsKept (s t : State) : Prop where
  outFormat : t.outFormat = s.outFormat
  sliceOffset : t.sliceOffset = s.sliceOffset
  sliceSize : t.sliceSize = s.sliceSize
  ptOffset : t.ptOffset = s.ptOffset
  ptLength : t.ptLength = s.ptLength

theorem RasterFrame.resultsKept {s t : State} (h : RasterFrame s t) : ResultsKept s t := by
  have he : t = _ := h.frame
  exact ⟨(congrArg State.outFormat he :), (congrArg State.sliceOffset he :), (congrArg State.sliceSize he :),
    (congrArg State.ptOffset he :), (congrArg State.ptLength he :)⟩

/-- No block changes OUT_WIDTH or OUT_HEIGHT. -/
theorem RasterFrame.outDims {s t : State} (h : RasterFrame s t) :
    t.outWidth = s.outWidth ∧ t.outHeight = s.outHeight := by
  have he : t = _ := h.frame
  exact ⟨(congrArg State.outWidth he :), (congrArg State.outHeight he :)⟩

/-- The raster phases' own results: OK with the dimensions of the image, or ERR_STRUCTURAL with none. -/
theorem rasterState_results {s t : State} {L : Nat} (hfmt : HasDecoder s)
    (hend : Rule.slicePos s L + Rule.size s L ≤ s.inLen.toNat)
    (hcap : 4 * Rule.width s L * Rule.height s L ≤ s.cfg.outCapacity)
    (ht : runRaster (rasterState s L) = .next t) :
    ResultsKept (rasterState s L) t ∧
    ((t.status.result = .ok ∧ t.outWidth.toNat = Rule.width s L ∧ t.outHeight.toNat = Rule.height s L) ∨
      (t.status.result = .errStructural ∧ t.outWidth = 0 ∧ t.outHeight = 0)) := by
  obtain ⟨v, hv, rfl⟩ | ⟨f, v, hf, hv, rfl⟩ := rasterState_ending hfmt hend hcap ht
  · obtain ⟨h1, h2, h3, h4, h5⟩ := hv.resultsKept
    refine ⟨⟨h1, h2, h3, h4, h5⟩, .inl ⟨rfl, ?_, ?_⟩⟩
    · rw [completeOk_outWidth, hv.width, rasterState_W, BitVec.toNat_ofNat, Nat.mod_eq_of_lt (width_lt s L)]
    · rw [completeOk_outHeight, hv.height, rasterState_H, BitVec.toNat_ofNat, Nat.mod_eq_of_lt (height_lt s L)]
  · obtain ⟨h1, h2, h3, h4, h5⟩ := hv.resultsKept
    exact ⟨⟨h1, h2, h3, h4, h5⟩,
      .inr ⟨hf, hv.outDims.1, hv.outDims.2⟩⟩

/-! ## OUT_FORMAT -/

/-- The code of the resolved format after every ending behind the resolver, 0 before it (40_container R136, R137). -/
theorem DecodeEnding.outFormat {s t : State} (h : DecodeEnding s t) :
    (¬ Rule.HeaderWhole s → t.outFormat = 0) ∧
    (Rule.HeaderWhole s → t.outFormat = outFormatWord (Rule.format s) (Rule.srgb s)) := by
  have whole (hh : Rule.HeaderWhole s) (ht : t.outFormat = outFormatWord (Rule.format s) (Rule.srgb s)) :
      (¬ Rule.HeaderWhole s → t.outFormat = 0) ∧
      (Rule.HeaderWhole s → t.outFormat = outFormatWord (Rule.format s) (Rule.srgb s)) :=
    ⟨fun hn => absurd hh hn, fun _ => ht⟩
  cases h with
  | badHeader f hh hf ht => exact ⟨fun _ => by rw [ht]; rfl, fun h => absurd h hh⟩
  | passThrough hh hfmt ht =>
    have hsrgb : Rule.srgb s = false := by
      by_contra hn
      have hbc7 := format_of_srgb (Bool.eq_true_of_not_eq_false hn)
      rw [hfmt] at hbc7
      cases hbc7
    exact whole hh (by rw [ht, hfmt, hsrgb]; rfl)
  | noDecoder hh hfmt ht => exact whole hh (by rw [ht]; rfl)
  | notFound hh hfmt hl ht => exact whole hh (by rw [ht]; rfl)
  | io L hh hfmt hl hend ht => exact whole hh (by rw [ht]; rfl)
  | capacity L hh hfmt hl hend hcap ht => exact whole hh (by rw [ht]; rfl)
  | raster L hh hfmt hl hend hcap ht =>
    obtain ⟨hkept, -⟩ := rasterState_results hfmt hend hcap ht
    exact whole hh hkept.outFormat

/-- The OUT_FORMAT word is the code plus 8 for SRGB. -/
theorem outFormatWord_eq (fmt : BlockFormat) (srgb : Bool) :
    outFormatWord fmt srgb = BitVec.ofNat 32 (formatCode fmt + if srgb then 8 else 0) := by
  cases srgb <;> rfl

/-- Settles O32: the DECODE answers, and OUT_FORMAT by its ending. -/
theorem formatRegister : Obligations.FormatRegister := by
  intro data s hcmd
  obtain ⟨t, ht⟩ := runDecode_answers s
  obtain ⟨hbad, hwhole⟩ := (decodeEnding_of_runDecode ht).outFormat
  refine ⟨t, (exec_decode_of_commanded hcmd).trans ht, hbad, fun hh => ?_⟩
  rw [hwhole hh, outFormatWord_eq]
  cases Rule.format s <;> rfl

/-! ## The slice registers and dimensions -/

/-- The failures of PARSE are structural, and none of them is that of a reserved block. -/
theorem parseFailure_info {s : State} {f : Failure} (h : parseFailure s = some f) :
    failureResult f = .errStructural ∧ failureInfo f ≠ 0x0883 := by
  obtain rfl | rfl := parseFailure_eq_some h <;> exact ⟨rfl, by decide⟩

theorem zero_ne_reservedInfo : (0 : Word) ≠ 0x0883 := by decide

/-- How a DECODE leaves the slice registers: 0 when it ends before a match, else the words of the located slice, which
lies in the stream unless the DECODE ends with ERR_IO. ERR_INFO 0x0883 is that of a
reserved block. -/
inductive SliceEnding (s t : State) : Prop
  | unlocated (hr : t.status.result ∈ [.errStructural, .passThrough, .errUnsupported, .errNotFound])
      (hinfo : t.errInfo ≠ 0x0883) (hoff : t.sliceOffset = 0) (hsize : t.sliceSize = 0)
  | outside (L : Nat) (hh : Rule.HeaderWhole s) (hl : Rule.level s = some L) (hr : t.status.result = .errIo)
      (hinfo : t.errInfo ≠ 0x0883) (hend : s.inLen.toNat < Rule.slicePos s L + Rule.size s L)
      (hoff : t.sliceOffset = sliceWord Config.unfitOffset (Rule.slicePos s L))
      (hsize : t.sliceSize = sliceWord Config.unfitSize (Rule.size s L))
  | inside (L : Nat) (hh : Rule.HeaderWhole s) (hl : Rule.level s = some L)
      (hr : t.status.result ∈ [.ok, .errCapacity, .errStructural])
      (hend : Rule.slicePos s L + Rule.size s L ≤ s.inLen.toNat)
      (hoff : t.sliceOffset = sliceWord Config.unfitOffset (Rule.slicePos s L))
      (hsize : t.sliceSize = sliceWord Config.unfitSize (Rule.size s L))
      (hdims : t.status.result = .ok → t.outWidth.toNat = Rule.width s L ∧ t.outHeight.toNat = Rule.height s L)

theorem DecodeEnding.sliceEnding {s t : State} (h : DecodeEnding s t) : SliceEnding s t := by
  cases h with
  | badHeader f hh hf ht =>
    obtain ⟨hr, hinfo⟩ := parseFailure_info hf
    subst ht
    exact .unlocated (by simp [hr]) (by simpa [hr] using hinfo) rfl rfl
  | passThrough hh hfmt ht => subst ht; exact .unlocated (by simp) zero_ne_reservedInfo rfl rfl
  | noDecoder hh hfmt ht => subst ht; exact .unlocated (by simp [failureResult]) zero_ne_reservedInfo rfl rfl
  | notFound hh hfmt hl ht => subst ht; exact .unlocated (by simp [failureResult]) zero_ne_reservedInfo rfl rfl
  | io L hh hfmt hl hend ht =>
    subst ht
    exact .outside L hh hl rfl zero_ne_reservedInfo hend rfl (sliceState_sliceSize hfmt L)
  | capacity L hh hfmt hl hend hcap ht =>
    subst ht
    exact .inside L hh hl (by simp [failureResult]) hend rfl (sliceState_sliceSize hfmt L) Result.noConfusion
  | raster L hh hfmt hl hend hcap ht =>
    obtain ⟨hkept, hres⟩ := rasterState_results hfmt hend hcap ht
    refine .inside L hh hl ?_ hend hkept.sliceOffset (hkept.sliceSize.trans (sliceState_sliceSize hfmt L)) ?_
    · obtain ⟨hr, -⟩ | ⟨hr, -⟩ := hres <;> simp [hr]
    · intro hok
      obtain ⟨-, hw, hh⟩ | ⟨hr, -⟩ := hres
      · exact ⟨hw, hh⟩
      · rw [hr] at hok
        cases hok

/-- OUT_WIDTH and OUT_HEIGHT are 0 after every ending but OK (10_state R33). -/
theorem DecodeEnding.noDims {s t : State} (h : DecodeEnding s t) (hr : t.status.result ≠ .ok) :
    t.outWidth = 0 ∧ t.outHeight = 0 := by
  cases h with
  | badHeader f hh hf ht => subst ht; exact ⟨rfl, rfl⟩
  | passThrough hh hfmt ht => subst ht; exact ⟨rfl, rfl⟩
  | noDecoder hh hfmt ht => subst ht; exact ⟨rfl, rfl⟩
  | notFound hh hfmt hl ht => subst ht; exact ⟨rfl, rfl⟩
  | io L hh hfmt hl hend ht => subst ht; exact ⟨rfl, rfl⟩
  | capacity L hh hfmt hl hend hcap ht => subst ht; exact ⟨rfl, rfl⟩
  | raster L hh hfmt hl hend hcap ht =>
    obtain ⟨-, ⟨hok, -⟩ | ⟨-, hdims⟩⟩ := rasterState_results hfmt hend hcap ht
    · exact absurd hok hr
    · exact hdims

/-- PT_OFFSET and PT_LENGTH are 0 unless the DECODE passed through (10_state R35). -/
theorem DecodeEnding.noBlob {s t : State} (h : DecodeEnding s t) (hr : t.status.result ≠ .passThrough) :
    t.ptOffset = 0 ∧ t.ptLength = 0 := by
  cases h with
  | badHeader f hh hf ht => subst ht; exact ⟨rfl, rfl⟩
  | passThrough hh hfmt ht => subst ht; exact absurd rfl hr
  | noDecoder hh hfmt ht => subst ht; exact ⟨rfl, rfl⟩
  | notFound hh hfmt hl ht => subst ht; exact ⟨rfl, rfl⟩
  | io L hh hfmt hl hend ht => subst ht; exact ⟨rfl, rfl⟩
  | capacity L hh hfmt hl hend hcap ht => subst ht; exact ⟨rfl, rfl⟩
  | raster L hh hfmt hl hend hcap ht =>
    obtain ⟨hkept, -⟩ := rasterState_results hfmt hend hcap ht
    exact ⟨hkept.ptOffset, hkept.ptLength⟩

/-- After OK, ERR_CAPACITY or a reserved block the registers hold the slice. -/
theorem SliceEnding.located {s t : State} (h : SliceEnding s t)
    (hr : t.status.result = .ok ∨ t.status.result = .errCapacity ∨ t.errInfo = 0x0883) :
    ∃ L, Rule.level s = some L ∧ t.sliceOffset.toNat = Rule.slicePos s L ∧ t.sliceSize.toNat = Rule.size s L ∧
      Rule.slicePos s L + Rule.size s L ≤ s.inLen.toNat ∧
      (t.status.result = .ok → t.outWidth.toNat = Rule.width s L ∧ t.outHeight.toNat = Rule.height s L) := by
  cases h with
  | unlocated hmem hinfo =>
    obtain hr | hr | hr := hr
    · simp [hr] at hmem
    · simp [hr] at hmem
    · exact absurd hr hinfo
  | outside L hh hl hio hinfo =>
    obtain hr | hr | hr := hr
    · simp [hr] at hio
    · simp [hr] at hio
    · exact absurd hr hinfo
  | inside L hh hl hmem hend hoff hsize hdims =>
    obtain ⟨hpos, hlen⟩ := slice_lt hend
    exact ⟨L, hl, by rw [hoff, sliceWord_of_lt hpos], by rw [hsize, sliceWord_of_lt hlen], hend, hdims⟩

/-- After ERR_IO each register holds what fits it. -/
theorem SliceEnding.ofErrIo {s t : State} (h : SliceEnding s t) (hr : t.status.result = .errIo) :
    ∃ L, Rule.level s = some L ∧ s.inLen.toNat < Rule.slicePos s L + Rule.size s L ∧
      (Rule.slicePos s L < 2 ^ 32 → t.sliceOffset.toNat = Rule.slicePos s L) ∧
      (Rule.size s L < 2 ^ 32 → t.sliceSize.toNat = Rule.size s L) := by
  cases h with
  | unlocated hmem => simp [hr] at hmem
  | outside L hh hl hio hinfo hend hoff hsize =>
    exact ⟨L, hl, hend, fun hpos => by rw [hoff, sliceWord_of_lt hpos],
      fun hlen => by rw [hsize, sliceWord_of_lt hlen]⟩
  | inside L hh hl hmem => simp [hr] at hmem

/-- After an ending before a match both registers are 0. -/
theorem SliceEnding.zero {s t : State} (h : SliceEnding s t)
    (hr : t.status.result = .errNotFound ∨ t.status.result = .errUnsupported ∨ t.status.result = .passThrough ∨
      ¬ Rule.HeaderWhole s) : t.sliceOffset = 0 ∧ t.sliceSize = 0 := by
  cases h with
  | unlocated hmem hinfo hoff hsize => exact ⟨hoff, hsize⟩
  | outside L hh hl hio =>
    obtain hr | hr | hr | hr := hr
    case inr.inr.inr => exact absurd hh hr
    all_goals simp [hr] at hio
  | inside L hh hl hmem =>
    obtain hr | hr | hr | hr := hr
    case inr.inr.inr => exact absurd hh hr
    all_goals simp [hr] at hmem

/-- Settles O34: the slice registers by where the slice lies, the dimensions and the blob by the ending. -/
theorem sliceAndSizeRegisters : Obligations.SliceAndSizeRegisters := by
  intro data s t hcmd ht
  have hend := decodeEnding_of_runDecode ((exec_decode_of_commanded hcmd).symm.trans ht)
  have hslice := hend.sliceEnding
  exact ⟨hslice.located, hslice.ofErrIo, hslice.zero, hend.noDims, hend.noBlob⟩

end Sys2Proof.Machine
end

section
/-! Host accesses to IN and OUT: what a write stores and a read returns, byte by byte (20_memory R61, R63). -/

namespace Sys2Proof.Machine

/-! ## Bytes of a bus word -/

/-- A byte of a little-endian number of at most four bytes, read out of its register word. -/
theorem extractLsb'_leNat {bs : List Byte} {j : Nat} {b : Byte} (hlen : bs.length ≤ 4) (hb : bs[j]? = some b) :
    (BitVec.ofNat 32 (leNat bs)).extractLsb' (8 * j) 8 = b := by
  have hfit : leNat bs < 2 ^ 32 := (leNat_lt bs).trans_le (Nat.pow_le_pow_right (n := 256) (by decide) hlen)
  have hj : j < bs.length := (List.getElem?_eq_some_iff.1 hb).1
  have hdigit : bs[j]? = some (BitVec.ofNat 8 (leNat bs / 256 ^ j)) := by
    conv_lhs => rw [← leBytes_leNat bs]
    exact leBytes_getElem? _ _ _ hj
  obtain rfl : BitVec.ofNat 8 (leNat bs / 256 ^ j) = b := Option.some.inj (hdigit.symm.trans hb)
  rw [BitVec.extractLsb', BitVec.toNat_ofNat, Nat.mod_eq_of_lt hfit, Nat.shiftRight_eq_div_pow, Nat.pow_mul]

theorem widthBytes_le (w : Width) : widthBytes w ≤ 4 := by cases w <;> decide

/-- An access that is misaligned or reaches the capacity is not accessible (20_memory R61, R63). -/
theorem accessible_eq_false_iff (w : Width) (addr cap : Nat) :
    accessible w addr cap = false ↔ addr % widthBytes w ≠ 0 ∨ cap < addr + widthBytes w := by
  rw [← Bool.not_eq_true, accessible_iff, not_and_or, Nat.not_le]

/-! ## IN -/

/-- The bytes of a register word, by bit range and by number. -/
theorem leBytes_word_getElem? (v : Word) {n j : Nat} (h : j < n) :
    (leBytes n v.toNat)[j]? = some (v.extractLsb' (8 * j) 8) := by
  rw [leBytes_getElem? _ _ _ h, BitVec.extractLsb', Nat.shiftRight_eq_div_pow, Nat.pow_mul]

/-- What a write of `n` bytes of `v` at `addr` leaves: byte `j` of `v` at `addr + j`, every other byte as it was. -/
theorem read_writeList_word (m : Memory) (addr n : Nat) (v : Word) :
    (∀ j, j < n → (m.writeList addr (leBytes n v.toNat)).read (addr + j) = some (v.extractLsb' (8 * j) 8)) ∧
    ∀ k, k < addr ∨ addr + n ≤ k → (m.writeList addr (leBytes n v.toNat)).read k = m.read k := by
  refine ⟨fun j hj => ?_, fun k hk => ?_⟩ <;> rw [Memory.read_writeList, leBytes_length]
  · rw [if_pos (by omega), Nat.add_sub_cancel_left, leBytes_word_getElem? v hj]
  · rw [if_neg (by omega)]

/-- Settles O48: the write's two outcomes. -/
theorem inputWriteIsLittleEndian : Obligations.InputWriteIsLittleEndian := by
  intro s w addr v rest h
  rw [step_of_access h rfl, hostAccess]
  obtain ⟨hno, he⟩ | ⟨hidle, hal, hcap, he⟩ := inWrite_cases w addr v { s with turns := rest } <;> rw [he]
  · refine ⟨fun hb hal hcap => ?_, fun _ => rfl⟩
    obtain hbusy | hout := hno
    · exact absurd (hb.symm.trans hbusy) Bool.false_ne_true
    · exact absurd ⟨hal, hcap⟩ hout
  · refine ⟨fun _ _ _ => ⟨_, rfl, rfl, read_writeList_word s.inMem addr (widthBytes w) v⟩, fun hno => ?_⟩
    obtain hbusy | hmis | hbig := hno
    · exact absurd (hidle.symm.trans hbusy) Bool.false_ne_true
    · exact absurd hal hmis
    · exact absurd hcap (Nat.not_le.2 hbig)

/-- Settles O49: the number of the bytes read, taken apart again. -/
theorem inputReadIsLittleEndian : Obligations.InputReadIsLittleEndian := by
  intro s w addr rest h
  rw [step_of_access h rfl, hostAccess, inReadAccess]
  refine ⟨fun hal hcap => ?_, fun hno => by rw [if_pos ((accessible_eq_false_iff _ _ _).2 hno)]⟩
  have hserved : accessible w addr s.cfg.inCapacity = true := (accessible_iff _ _ _).2 ⟨hal, hcap⟩
  rw [if_neg (by simp [hserved])]
  refine ⟨_, rfl, fun j hj => ?_, ?_⟩
  · exact extractLsb'_leNat ((inBytes_length _ _ _).trans_le (widthBytes_le w)) (inBytes_getElem? _ _ _ _ hj)
  · exact (BitVec.toNat_ofNat _ _).trans_le (Nat.mod_le _ _) |>.trans_lt (inRead_lt _ _ _)

/-! ## OUT -/

theorem visibleOutBytes_length (s : State) (n addr m j : Nat) : (visibleOutBytes s n addr m j).length = m := by
  induction m generalizing j with
  | zero => rfl
  | succ m ih => rw [visibleOutBytes, List.length_cons, ih]

/-- Byte `i` a read of OUT sees is what its own address shows. -/
theorem visibleOutBytes_getElem? (s : State) (n addr : Nat) {m i : Nat} (j : Nat) (h : i < m) :
    (visibleOutBytes s n addr m j)[i]? = some (visibleOut s n (addr + (j + i)) (j + i)) := by
  induction m generalizing i j with
  | zero => omega
  | succ m ih =>
    cases i with
    | zero => rfl
    | succ i =>
      rw [visibleOutBytes, List.getElem?_cons_succ, ih (j + 1) (by omega), show j + 1 + i = j + (i + 1) by omega]

/-- A byte of a valid raster shows what OUT holds (20_memory R63). -/
theorem visibleOut_of_valid {s : State} {addr : Nat} {b : Byte} (hb : s.status.busy = false)
    (hv : s.status.rasterValid = true) (ha : addr < 4 * s.outWidth.toNat * s.outHeight.toNat)
    (h : s.outMem.read addr = some b) (n j : Nat) : visibleOut s n addr j = b := by
  rw [visibleOut, if_pos ⟨hb, hv, ha⟩, h, Option.getD_some]

/-- Everything a read of OUT can do (20_memory R63): 0 when turned away, else the bytes its addresses show. -/
theorem outReadAccess_cases (w : Width) (addr : Nat) (s : State) :
    ((addr % widthBytes w ≠ 0 ∨ s.cfg.outCapacity < addr + widthBytes w) ∧
      outReadAccess w addr s = { s with busData := 0 }) ∨
    (¬ (addr % widthBytes w ≠ 0 ∨ s.cfg.outCapacity < addr + widthBytes w) ∧
      outReadAccess w addr s = { s with
        busData := BitVec.ofNat 32 (leNat (visibleOutBytes s s.draws addr (widthBytes w) 0))
        draws := s.draws + 1 }) := by
  rw [← accessible_eq_false_iff, outReadAccess]
  by_cases h : accessible w addr s.cfg.outCapacity = false
  · exact .inl ⟨h, if_pos h⟩
  · exact .inr ⟨h, if_neg h⟩

/-- Settles O50: a write has no effect, and a read by whether it is served. -/
theorem outputAccess : Obligations.OutputAccess := by
  intro s w addr rest
  refine ⟨fun v h => step_of_access h rfl, fun h => ?_⟩
  rw [step_of_access h rfl, hostAccess]
  obtain ⟨hno, he⟩ | ⟨hserved, he⟩ := outReadAccess_cases w addr { s with turns := rest } <;> rw [he]
  · refine ⟨⟨_, rfl, rfl⟩, fun _ => rfl, fun hal hcap => ?_⟩
    obtain hmis | hbig := hno
    · exact absurd hal hmis
    · exact absurd hcap (Nat.not_le.2 hbig)
  · refine ⟨⟨_, rfl, rfl⟩, fun hno => absurd hno hserved, fun _ _ hb hv hin => ⟨_, rfl, fun j b hj hread => ?_⟩⟩
    refine extractLsb'_leNat ((visibleOutBytes_length _ _ _ _ _).trans_le (widthBytes_le w)) ?_
    rw [visibleOutBytes_getElem? _ _ _ _ hj, Nat.zero_add]
    exact congrArg some (visibleOut_of_valid (s := { s with turns := rest }) hb hv (by dsimp only; omega) hread _ _)

end Sys2Proof.Machine
end

section
/-! Everything a block of phase DECODE can do, from any state: no field of a BC7 block passes bit 128 (42_bc7 R198), so
only the reserved mode fails. -/

namespace Sys2Proof.Machine

/-! ## The bit budget of a BC7 block -/

/-- The bits of a block of mode `mode` with partition `shape`: the bits that select the mode and every field the
datapath reads (42_bc7 R182 to R192). -/
def bc7FieldBits (mode shape : Nat) : Nat :=
  mode + 1 + [(modeRow mode).pb, (modeRow mode).rb, (modeRow mode).isb].sum + (endpointWidths (modeRow mode)).sum +
    (List.replicate (modeRow mode).np 1).sum + (primaryWidths (modeRow mode) shape).sum +
    (secondaryWidths (modeRow mode)).sum

/-- Every mode fills its block exactly, whatever the partition: its anchors are as many as its subsets (42_bc7 R198). -/
theorem bc7FieldBits_eq : ∀ mode < 8, ∀ shape < 2 ^ (modeRow mode).pb, bc7FieldBits mode shape = 128 := by
  decide

/-- Reading fields that all end at or below bit 128 succeeds, and the cursor is behind them. -/
theorem exists_readMany (ns : List Nat) {c : Cursor} (h : c.pos + ns.sum ≤ 128) :
    ∃ vs c', readMany ns c = .ok (vs, c') ∧ c'.pos = c.pos + ns.sum :=
  ⟨_, _, readMany_of_le ns c h, rfl⟩

/-- The first of the fields read is the one at the cursor. -/
theorem head_of_readMany {n : Nat} {ns vs : List Nat} {c c' : Cursor} (h : readMany (n :: ns) c = .ok (vs, c'))
    (hfit : c.pos + (n :: ns).sum ≤ 128) : vs.getD 0 0 = blockField c.bytes c.pos n := by
  cases (readMany_of_le _ c hfit).symm.trans h
  simp

/-- No field of a BC7 block passes bit 128 (42_bc7 R198). -/
theorem loadBc7_ok {mode : Nat} (h : mode < 8) (bytes : List Byte) : ∃ d, loadBc7 mode bytes = .ok d := by
  have hbits := bc7FieldBits_eq mode h _ (blockField_lt bytes (mode + 1) (modeRow mode).pb)
  unfold bc7FieldBits at hbits
  obtain ⟨hdr, c1, hhdr, hc1⟩ := exists_readMany [(modeRow mode).pb, (modeRow mode).rb, (modeRow mode).isb]
    (c := ⟨bytes, mode + 1⟩) (by dsimp only; omega)
  have hshape : hdr.getD 0 0 = blockField bytes (mode + 1) (modeRow mode).pb :=
    head_of_readMany hhdr (by dsimp only; omega)
  dsimp only at hc1
  obtain ⟨raw, c2, hraw, hc2⟩ := exists_readMany (endpointWidths (modeRow mode)) (c := c1) (by omega)
  obtain ⟨p, c3, hp, hc3⟩ := exists_readMany (List.replicate (modeRow mode).np 1) (c := c2) (by omega)
  obtain ⟨i1, c4, hi1, hc4⟩ := exists_readMany (primaryWidths (modeRow mode) (hdr.getD 0 0)) (c := c3)
    (by rw [hshape]; omega)
  rw [hshape] at hc4
  obtain ⟨i2, c5, hi2, -⟩ := exists_readMany (secondaryWidths (modeRow mode)) (c := c4) (by omega)
  simp only [loadBc7, hhdr, hraw, hp, hi1, hi2]
  exact ⟨_, rfl⟩

/-! ## A block, from any state -/

/-- A block of one of the eight modes runs to the block's end. -/
theorem bc7Block_eq_finishBlock {mode : Nat} (h : mode < 8) (bytes : List Byte) (s : State) :
    ∃ px, bc7Block mode bytes s = finishBlock px s := by
  obtain ⟨d, hd⟩ := loadBc7_ok h bytes
  exact ⟨_, by rw [bc7Block, hd]; exact finishBlock_bc7 _ s d⟩

/-- Everything a block instruction can do: only the reserved mode fails (42_bc7 R198, R208, 41_dxt R163). -/
theorem execBlock_cases {i : Instr} (hi : ∀ data, i ≠ .decode data) (s : State) :
    execBlock i s = .next (raiseBlockFail .bc7ReservedMode (blockIndex s) s) ∨
      ∃ px, execBlock i s = finishBlock px s := by
  cases i with
  | decode data => exact absurd rfl (hi data)
  | dxt1 c0 c1 sel => exact .inr ⟨dxt1Pixels _, finishBlock_dxt _ s (loadDxt1 c0 c1 sel s.dxt)⟩
  | dxt3 alpha c0 c1 sel => exact .inr ⟨dxt3Pixels alpha _, finishBlock_dxt _ s (loadColour c0 c1 sel s.dxt)⟩
  | dxt5 a0 a1 asel c0 c1 sel =>
    exact .inr ⟨dxt5Pixels _, finishBlock_dxt _ s (loadDxt5 a0 a1 asel c0 c1 sel s.dxt)⟩
  | bc7Reserved => exact .inl rfl
  | _ =>
    simp only [execBlock, execBc7Mode0, execBc7Mode1, execBc7Mode2, execBc7Mode3, execBc7Mode4, execBc7Mode5,
      execBc7Mode6, execBc7Mode7]
    exact .inr (bc7Block_eq_finishBlock (by decide) _ s)

/-- Everything a block that answers can do, from any state: the DECODE ends at a block in the reserved mode, or the
block is written and the next is due. -/
theorem blockStep_next {s t : State} (h : blockStep s = .next t) :
    t = raiseBlockFail .bc7ReservedMode (blockIndex s) s ∨ ∃ px, t = afterBlock px s := by
  cases hf : fetchBlock s with
  | error f => simp [blockStep, hf] at h
  | ok i =>
    have he : execBlock i s = .next t := by rwa [blockStep, hf] at h
    obtain hfail | ⟨px, hpx⟩ := execBlock_cases (fetchBlock_ne_decode hf) s
    · cases hfail.symm.trans he
      exact .inl rfl
    · exact .inr ⟨px, (finishBlock_next (hpx.symm.trans he)).2⟩

end Sys2Proof.Machine
end

section
/-! A DECODE as a run of ENGINE steps: every phase and every block is one, so the atomic DECODE is what the ENGINE
reaches by itself, and what every ENGINE step keeps, the DECODE keeps. -/

namespace Sys2Proof.Machine

open Relation (ReflTransGen)

/-! ## ENGINE steps -/

/-- One step of the ENGINE by itself: a phase, or a block of phase DECODE (10_state R39). -/
inductive EngineStep (s t : State) : Prop
  | phase (h : engineMove s = .moved t)
  | block (hp : s.phase = .decode) (h : blockStep s = .next t)

/-- With no turn of the outside world left, the machine's step is the ENGINE's. -/
theorem EngineStep.step_eq {s t : State} (h : EngineStep s t) (hturns : s.turns = []) : step s = .next t := by
  have hmove := nextMove_of_nil hturns
  cases h with
  | phase h => exact step_of_moved (hmove.trans h)
  | block hp h =>
    cases hf : fetchBlock s with
    | error f => simp [blockStep, hf] at h
    | ok i =>
      rw [step_of_run (hmove.trans (engineMove_decode hp hf)), ← blockStep_of_fetch hf]
      exact h

/-! ## Every phase of a DECODE is a run of ENGINE steps -/

theorem engineSteps_parsePhase (s : State) : ReflTransGen EngineStep s (parsePhase s) := by
  by_cases hp : s.phase = .parse
  · exact .single (.phase (engineMove_parse hp))
  · rw [parsePhase_of_ne hp]

theorem engineSteps_resolvePhase (s : State) : ReflTransGen EngineStep s (resolvePhase s) := by
  by_cases hp : s.phase = .resolve
  · exact .single (.phase (engineMove_resolve hp))
  · rw [resolvePhase_of_ne hp]

theorem engineSteps_locatePhase (s : State) : ReflTransGen EngineStep s (locatePhase s) := by
  by_cases hp : s.phase = .locate
  · exact .single (.phase (engineMove_locate hp))
  · rw [locatePhase_of_ne hp]

theorem engineSteps_allocPhase (s : State) : ReflTransGen EngineStep s (allocPhase s) := by
  by_cases hp : s.phase = .alloc
  · exact .single (.phase (engineMove_alloc hp))
  · rw [allocPhase_of_ne hp]

theorem engineSteps_alphaPhase {s t : State} (h : alphaPhase s = .next t) : ReflTransGen EngineStep s t := by
  by_cases hp : s.phase = .alpha
  · exact .single (.phase (engineMove_alpha hp h))
  · cases (alphaPhase_of_ne hp).symm.trans h
    exact .refl

theorem engineSteps_finishPhase (s : State) : ReflTransGen EngineStep s (finishPhase s) := by
  by_cases hp : s.phase = .finish
  · exact .single (.phase (engineMove_finish hp))
  · rw [finishPhase_of_ne hp]

/-- The block loop steps while the phase is DECODE. -/
theorem runBlocks_succ_cases {n : Nat} {s t : State} (hp : s.phase = .decode) (h : runBlocks (n + 1) s = .next t) :
    ∃ u, blockStep s = .next u ∧ runBlocks n u = .next t := by
  cases hb : blockStep s with
  | next u => exact ⟨u, rfl, (runBlocks_succ_next hp hb).symm.trans h⟩
  | fault f => simp [runBlocks, hp, hb] at h
  | refused r => simp [runBlocks, hp, hb] at h

theorem engineSteps_runBlocks {n : Nat} {s t : State} (h : runBlocks n s = .next t) : ReflTransGen EngineStep s t := by
  induction n generalizing s with
  | zero => cases h; exact .refl
  | succ n ih =>
    by_cases hp : s.phase = .decode
    · obtain ⟨u, hu, hrest⟩ := runBlocks_succ_cases hp h
      exact (ih hrest).head (.block hp hu)
    · cases (runBlocks_of_ne hp).symm.trans h
      exact .refl

theorem engineSteps_runRaster {s t : State} (h : runRaster s = .next t) : ReflTransGen EngineStep s t := by
  obtain ⟨-, rfl⟩ | ⟨u, v, -, hu, hv, rfl⟩ := runRaster_next h
  · exact .refl
  · exact (engineSteps_runBlocks hu).trans ((engineSteps_alphaPhase hv).trans (engineSteps_finishPhase v))

/-- A started DECODE that answers answers what the ENGINE reaches by its own steps. -/
theorem engineSteps_runDecode {s t : State} (h : runDecode s = .next t) : ReflTransGen EngineStep s t :=
  (engineSteps_parsePhase s).trans <| (engineSteps_resolvePhase _).trans <| (engineSteps_locatePhase _).trans <|
    (engineSteps_allocPhase _).trans (engineSteps_runRaster h)

/-! ## What every ENGINE step keeps -/

/-- What a DECODE keeps throughout (20_memory R72): its operands, and what belongs to the outside world. -/
structure DecodeKept (s t : State) : Prop where
  operands : OperandsKept s t
  turns : t.turns = s.turns
  busData : t.busData = s.busData

theorem OperandsKept.trans {s t u : State} (h : OperandsKept s t) (h' : OperandsKept t u) : OperandsKept s u :=
  ⟨h'.cfg.trans h.cfg, h'.epoch.trans h.epoch, h'.inMem.trans h.inMem, h'.inLen.trans h.inLen,
    h'.reqSlice.trans h.reqSlice, h'.reqWidth.trans h.reqWidth, h'.reqHeight.trans h.reqHeight,
    h'.reqFlags.trans h.reqFlags⟩

theorem DecodeKept.trans {s t u : State} (h : DecodeKept s t) (h' : DecodeKept t u) : DecodeKept s u :=
  ⟨h.operands.trans h'.operands, h'.turns.trans h.turns, h'.busData.trans h.busData⟩

/-- In phase DECODE the ENGINE runs a block or stops. -/
theorem phase_ne_decode_of_moved {s t : State} (h : engineMove s = .moved t) : s.phase ≠ .decode := by
  intro hp
  cases hf : fetchBlock s with
  | error f => cases (engineMove_decode_stop hp hf).symm.trans h
  | ok i => cases (engineMove_decode hp hf).symm.trans h

/-- In phase ALPHA the ENGINE moves only where ALPHA answers. -/
theorem alphaPhase_of_moved {s t : State} (hp : s.phase = .alpha) (h : engineMove s = .moved t) :
    alphaPhase s = .next t := by
  obtain ⟨-, he⟩ | ⟨-, -, he⟩ | ⟨-, -, he⟩ := alphaPhase_cases hp
  · cases (engineMove_alpha hp he).symm.trans h
    exact he
  · cases (engineMove_alpha hp he).symm.trans h
    exact he
  · simp [engineMove, hp, he] at h

/-- A phase of the ENGINE leaves the coming turns and the bus alone. -/
theorem engineMove_world {s t : State} (h : engineMove s = .moved t) : t.turns = s.turns ∧ t.busData = s.busData := by
  cases hp : s.phase with
  | idle => cases (engineMove_idle hp).symm.trans h; exact ⟨rfl, rfl⟩
  | parse =>
    cases (engineMove_parse hp).symm.trans h
    obtain ⟨f, -, he⟩ | ⟨-, he⟩ := parsePhase_cases hp <;> rw [he] <;> exact ⟨rfl, rfl⟩
  | resolve =>
    cases (engineMove_resolve hp).symm.trans h
    obtain ⟨-, he⟩ | ⟨-, he⟩ | ⟨-, -, -, he⟩ := resolvePhase_cases hp <;> rw [he] <;> exact ⟨rfl, rfl⟩
  | locate =>
    cases (engineMove_locate hp).symm.trans h
    obtain ⟨-, he⟩ | ⟨r, -, he⟩ := locatePhase_cases hp <;> rw [he]
    · exact ⟨rfl, rfl⟩
    · obtain ⟨-, he⟩ | ⟨-, he⟩ := foundSlice_cases r s <;> rw [he] <;> exact ⟨rfl, rfl⟩
  | alloc =>
    cases (engineMove_alloc hp).symm.trans h
    obtain ⟨-, he⟩ | ⟨-, he⟩ := allocPhase_cases hp <;> rw [he] <;> exact ⟨rfl, rfl⟩
  | decode => exact absurd hp (phase_ne_decode_of_moved h)
  | alpha =>
    obtain ⟨-, he⟩ | ⟨-, -, he⟩ | ⟨-, -, he⟩ := alphaPhase_cases hp <;>
      cases he.symm.trans (alphaPhase_of_moved hp h) <;> exact ⟨rfl, rfl⟩
  | finish =>
    cases (engineMove_finish hp).symm.trans h
    rw [finishPhase_of_eq hp]
    exact ⟨rfl, rfl⟩

theorem EngineStep.decodeKept {s t : State} (h : EngineStep s t) : DecodeKept s t := by
  cases h with
  | phase h => exact ⟨operandsKept_engineMove h, (engineMove_world h).1, (engineMove_world h).2⟩
  | block hp h =>
    obtain rfl | ⟨px, rfl⟩ := blockStep_next h
    · exact ⟨⟨rfl, rfl, rfl, rfl, rfl, rfl, rfl, rfl⟩, rfl, rfl⟩
    · exact ⟨operandsKept_afterBlock px s, by simp [afterBlock], by simp [afterBlock]⟩

theorem decodeKept_of_engineSteps {s t : State} (h : ReflTransGen EngineStep s t) : DecodeKept s t := by
  induction h with
  | refl => exact ⟨.refl s, rfl, rfl⟩
  | tail _ hstep ih => exact ih.trans hstep.decodeKept

theorem run_succ_of_step {M : Host.Core} {s u : M.State} {n : Nat} (h : M.step s = .next u) :
    M.run (n + 1) s = M.run n u := by rw [Host.Core.run, h]

/-- With no turn of the outside world left, the machine makes any run of ENGINE steps. -/
theorem run_of_engineSteps {s t : State} (h : ReflTransGen EngineStep s t) (hturns : s.turns = []) :
    ∃ n, Sys2Proof.core.run n s = .next t := by
  induction h using ReflTransGen.head_induction_on with
  | refl => exact ⟨0, rfl⟩
  | head hstep _ ih =>
    obtain ⟨n, hn⟩ := ih (hstep.decodeKept.turns.trans hturns)
    exact ⟨n + 1, (run_succ_of_step (M := Sys2Proof.core) (hstep.step_eq hturns)).trans hn⟩

/-- Settles O41: the DECODE answers, and its answer is a run of ENGINE steps. -/
theorem atomicDecodeIsTheStepwiseOne : Obligations.AtomicDecodeIsTheStepwiseOne := by
  intro data s hstart hidle hturns
  obtain ⟨t, ht⟩ := runDecode_answers s
  have hcmd : Commanded data s := ⟨hstart, hidle, by rw [actsDuring, hturns]⟩
  obtain ⟨n, hn⟩ := run_of_engineSteps (engineSteps_runDecode ht) hturns
  exact ⟨n, t, (exec_decode_of_commanded hcmd).trans ht, hn⟩

end Sys2Proof.Machine
end

section
/-! The frame of a whole DECODE: what every ENGINE step keeps, and OUT, which the raster phases write below `4·W·H`
only. -/

namespace Sys2Proof.Machine

open Relation (ReflTransGen)

/-! ## OUT over a block and ALPHA -/

/-- A byte of OUT above the raster is no pixel's (44_raster R254). -/
theorem read_afterBlock_above {s : State} {a : Nat} (h : rasterBytes s ≤ a) (px : List Pixel) :
    (afterBlock px s).outMem.read a = s.outMem.read a := by
  rw [afterBlock, nextBlock_outMem]
  refine read_writePixels_frame _ _ _ _ _ fun j _ _ ⟨hx, hy, _, hlt⟩ => ?_
  have hin := pixelAddr_lt hx hy
  unfold rasterBytes at h
  omega

/-- A byte of OUT above the raster is no alpha byte (44_raster R257). -/
theorem read_forceAlpha_above {s : State} {a : Nat} (h : rasterBytes s ≤ a) :
    (forceAlpha (s.ras.W * s.ras.H) s.outMem).read a = s.outMem.read a := by
  rw [rasterBytes, Nat.mul_assoc] at h
  rw [read_forceAlpha, if_neg (by omega)]

/-! ## OUT over the raster phases -/

/-- The ENGINE is in one of the phases behind ALLOC. -/
abbrev InRaster (s : State) : Prop := s.phase = .decode ∨ s.phase = .alpha ∨ s.phase = .finish

/-- What the ENGINE can come to from a phase behind ALLOC in `s`: another such phase of the same image, or the end of
the DECODE, with OK or at a block in the reserved mode. OUT above the raster is as it was. -/
structure RasterRun (s t : State) : Prop where
  above : ∀ a, rasterBytes s ≤ a → t.outMem.read a = s.outMem.read a
  stage : (InRaster t ∧ t.ras.W = s.ras.W ∧ t.ras.H = s.ras.H) ∨
    (t.phase = .idle ∧ (t.status.result = .ok ∨ t.errInfo = 0x0883))

theorem rasterRun_blockStep {s t : State} (hp : s.phase = .decode) (h : blockStep s = .next t) : RasterRun s t := by
  obtain rfl | ⟨px, rfl⟩ := blockStep_next h
  · exact ⟨fun _ _ => rfl, .inr ⟨rfl, .inr rfl⟩⟩
  · exact ⟨fun _ ha => read_afterBlock_above ha px,
      .inl ⟨(afterBlock_phase hp px).imp_right .inl, by simp [afterBlock], by simp [afterBlock]⟩⟩

theorem rasterRun_engineMove {s t : State} (hp : InRaster s) (h : engineMove s = .moved t) : RasterRun s t := by
  obtain hp | hp | hp := hp
  · exact absurd hp (phase_ne_decode_of_moved h)
  · obtain ⟨-, he⟩ | ⟨-, -, he⟩ | ⟨-, -, he⟩ := alphaPhase_cases hp <;>
      cases he.symm.trans (alphaPhase_of_moved hp h)
    · exact ⟨fun _ _ => rfl, .inl ⟨.inr (.inr rfl), rfl, rfl⟩⟩
    · exact ⟨fun _ => read_forceAlpha_above, .inl ⟨.inr (.inr rfl), rfl, rfl⟩⟩
  · cases (engineMove_finish hp).symm.trans h
    rw [finishPhase_of_eq hp]
    exact ⟨fun _ _ => rfl, .inr ⟨rfl, .inl rfl⟩⟩

theorem EngineStep.rasterRun {s t : State} (h : EngineStep s t) (hp : InRaster s) : RasterRun s t := by
  cases h with
  | phase h => exact rasterRun_engineMove hp h
  | block hp h => exact rasterRun_blockStep hp h

/-- Idle, the ENGINE keeps its state (60_exceptions R295). -/
theorem EngineStep.eq_of_idle {s t : State} (h : EngineStep s t) (hp : s.phase = .idle) : t = s := by
  cases h with
  | phase h => cases (engineMove_idle hp).symm.trans h; rfl
  | block hp' => cases hp.symm.trans hp'

theorem rasterRun_of_engineSteps {s t : State} (h : ReflTransGen EngineStep s t) (hp : InRaster s) : RasterRun s t := by
  induction h with
  | refl => exact ⟨fun _ _ => rfl, .inl ⟨hp, rfl, rfl⟩⟩
  | @tail u v _ hstep ih =>
    obtain ⟨hu, hW, hH⟩ | ⟨hidle, -⟩ := ih.stage
    · have hnext := hstep.rasterRun hu
      have hbytes : rasterBytes u = rasterBytes s := by rw [rasterBytes, rasterBytes, hW, hH]
      refine ⟨fun a ha => (hnext.above a (hbytes.trans_le ha)).trans (ih.above a ha), ?_⟩
      rw [← hW, ← hH]
      exact hnext.stage
    · rw [hstep.eq_of_idle hidle]
      exact ih

/-- The raster phases of a DECODE end it, with OK or at a block in the reserved mode. -/
theorem rasterState_result {s t : State} {L : Nat} (hfmt : HasDecoder s)
    (hend : Rule.slicePos s L + Rule.size s L ≤ s.inLen.toNat)
    (hcap : 4 * Rule.width s L * Rule.height s L ≤ s.cfg.outCapacity)
    (ht : runRaster (rasterState s L) = .next t) : t.status.result = .ok ∨ t.errInfo = 0x0883 := by
  have hidle : t.phase = .idle := by
    obtain ⟨v, -, rfl⟩ | ⟨f, v, -, -, rfl⟩ := rasterState_ending hfmt hend hcap ht <;> rfl
  obtain ⟨hraster, -⟩ | ⟨-, hres⟩ := (rasterRun_of_engineSteps (engineSteps_runRaster ht) (.inl rfl)).stage
  · simp [InRaster, hidle] at hraster
  · exact hres

/-! ## OUT over a DECODE -/

/-- What a DECODE from `s` to `t` leaves of OUT (20_memory R62, 60_exceptions R288): all of it when it ends before the
first block, and always what lies above the raster of its level. -/
def OutKept (s t : State) : Prop :=
  (t.status.result ≠ .ok → t.errInfo ≠ 0x0883 → t.outMem = s.outMem) ∧
  ∀ L, Rule.level s = some L → ∀ a, 4 * Rule.width s L * Rule.height s L ≤ a → t.outMem.read a = s.outMem.read a

theorem outKept_of_eq {s t : State} (h : t.outMem = s.outMem) : OutKept s t :=
  ⟨fun _ _ => h, fun _ _ a _ => congrArg (Memory.read · a) h⟩

theorem DecodeEnding.outKept {s t : State} (h : DecodeEnding s t) : OutKept s t := by
  cases h with
  | badHeader f hh hf ht => subst ht; exact outKept_of_eq rfl
  | passThrough hh hfmt ht => subst ht; exact outKept_of_eq rfl
  | noDecoder hh hfmt ht => subst ht; exact outKept_of_eq rfl
  | notFound hh hfmt hl ht => subst ht; exact outKept_of_eq rfl
  | io L hh hfmt hl hend ht => subst ht; exact outKept_of_eq rfl
  | capacity L hh hfmt hl hend hcap ht => subst ht; exact outKept_of_eq rfl
  | raster L hh hfmt hl hend hcap ht =>
    refine ⟨fun hok hinfo => ?_, fun L' hl' a ha => ?_⟩
    · obtain hres | hres := rasterState_result hfmt hend hcap ht
      · exact absurd hres hok
      · exact absurd hres hinfo
    · cases hl.symm.trans hl'
      refine (rasterRun_of_engineSteps (engineSteps_runRaster ht) (.inl rfl)).above a ?_
      rwa [rasterBytes, rasterState_W, rasterState_H]

/-- Settles O30: what every ENGINE step keeps, and OUT by the ending. -/
theorem decodeFrame : Obligations.DecodeFrame := by
  intro data s t hcmd ht
  have hrun := (exec_decode_of_commanded hcmd).symm.trans ht
  obtain ⟨hops, hturns, hbus⟩ := decodeKept_of_engineSteps (engineSteps_runDecode hrun)
  exact ⟨hops.cfg, hops.inMem, hops.inLen, hops.reqSlice, hops.reqWidth, hops.reqHeight, hops.reqFlags, hops.epoch,
    hturns, hbus, (decodeEnding_of_runDecode hrun).outKept⟩

end Sys2Proof.Machine
end

section
/-! The encoder and the decoder undo each other (30_encoding R89 to R114): a block is its word, a word is its fields laid
end to end, and the lowest set bit of a BC7 block says which fields. -/

namespace Sys2Proof.Machine

/-! ## A block and its word -/

/-- The bytes of a word, read back as a block, are the word. -/
theorem blockBits_leBytes {n k : Nat} (h : 2 ^ n = 256 ^ k) (w : BitVec n) : blockBits n (leBytes k w.toNat) = w := by
  apply BitVec.eq_of_toNat_eq
  rw [blockBits, BitVec.toNat_ofNat, leNat_leBytes, ← h, Nat.mod_mod, Nat.mod_eq_of_lt w.isLt]

/-- The bytes of a block's word are the block. -/
theorem leBytes_blockBits {n : Nat} {blk : List Byte} (h : 2 ^ n = 256 ^ blk.length) :
    leBytes blk.length (blockBits n blk).toNat = blk := by
  rw [blockBits, BitVec.toNat_ofNat, h, Nat.mod_eq_of_lt (leNat_lt blk), leBytes_leNat]

/-! ## The decode key -/

theorem decode_dxt1 {blk : List Byte} (h : blk.length = 8) :
    decode (.block .dxt1 blk) = .ok (decodeDxt1 (blockBits 64 blk)) := by
  simp [decode, decodeBlock, blockLength, h]

theorem decode_dxt3 {blk : List Byte} (h : blk.length = 16) :
    decode (.block .dxt3 blk) = .ok (decodeDxt3 (blockBits 128 blk)) := by
  simp [decode, decodeBlock, blockLength, h]

theorem decode_dxt5 {blk : List Byte} (h : blk.length = 16) :
    decode (.block .dxt5 blk) = .ok (decodeDxt5 (blockBits 128 blk)) := by
  simp [decode, decodeBlock, blockLength, h]

theorem decode_bc7 {blk : List Byte} (h : blk.length = 16) :
    decode (.block .bc7 blk) = .ok (decodeBc7 (blockBits 128 blk)) := by
  simp [decode, decodeBlock, blockLength, h]

/-- A format without a block decoder is refused by name (R89). -/
theorem decode_of_no_decoder {fmt : BlockFormat} (h : blockLength fmt = none) (blk : List Byte) :
    decode (.block fmt blk) = .error .noBlockDecoder := by
  cases fmt with
  | none | uncompressed | unsupported | passThrough => rfl
  | dxt1 | dxt3 | dxt5 | bc7 => cases h

/-- A decode key that is accepted has as many bytes as its format asks for (R108). -/
theorem blockLength_of_decode {fmt : BlockFormat} {blk : List Byte} {i : Instr}
    (h : decode (.block fmt blk) = .ok i) : blockLength fmt = some blk.length := by
  simp only [decode, decodeBlock] at h
  split at h
  · cases h
  · split at h
    · cases h
    · next hfmt hlen => exact hfmt.trans (congrArg some (not_not.1 hlen).symm)

/-- Everything a decode key that is accepted can give: the instruction of its format, read from the block's word. -/
theorem decode_block_eq_ok {fmt : BlockFormat} {blk : List Byte} {i : Instr} (h : decode (.block fmt blk) = .ok i) :
    (fmt = .dxt1 ∧ blk.length = 8 ∧ i = decodeDxt1 (blockBits 64 blk)) ∨
    (fmt = .dxt3 ∧ blk.length = 16 ∧ i = decodeDxt3 (blockBits 128 blk)) ∨
    (fmt = .dxt5 ∧ blk.length = 16 ∧ i = decodeDxt5 (blockBits 128 blk)) ∨
    (fmt = .bc7 ∧ blk.length = 16 ∧ i = decodeBc7 (blockBits 128 blk)) := by
  have hlen := blockLength_of_decode h
  cases fmt with
  | none | uncompressed | unsupported | passThrough => cases hlen
  | dxt1 =>
    cases (decode_dxt1 (Option.some.inj hlen).symm).symm.trans h
    exact .inl ⟨rfl, (Option.some.inj hlen).symm, rfl⟩
  | dxt3 =>
    cases (decode_dxt3 (Option.some.inj hlen).symm).symm.trans h
    exact .inr (.inl ⟨rfl, (Option.some.inj hlen).symm, rfl⟩)
  | dxt5 =>
    cases (decode_dxt5 (Option.some.inj hlen).symm).symm.trans h
    exact .inr (.inr (.inl ⟨rfl, (Option.some.inj hlen).symm, rfl⟩))
  | bc7 =>
    cases (decode_bc7 (Option.some.inj hlen).symm).symm.trans h
    exact .inr (.inr (.inr ⟨rfl, (Option.some.inj hlen).symm, rfl⟩))

/-! ## The mode bits -/

/-- A block is of mode `m` exactly when its lowest `m + 1` bits are the one bit `m` (30_encoding R96). -/
theorem bc7ModeOf_eq_some {w : BitVec 128} {m : Nat} :
    bc7ModeOf w = some m ↔ m < 8 ∧ w.extractLsb' 0 (m + 1) = BitVec.ofNat (m + 1) (2 ^ m) := by
  rw [bc7ModeOf, List.find?_range_eq_some, List.mem_range]
  constructor
  · rintro ⟨hset, hm, hlow⟩
    refine ⟨hm, BitVec.eq_of_getLsbD_eq fun j hj => ?_⟩
    rw [BitVec.getLsbD_extractLsb', BitVec.getLsbD_ofNat, Nat.testBit_two_pow, Nat.zero_add]
    obtain rfl | hne := eq_or_ne m j
    · simp [hset]
    · have hclear := hlow j (by omega)
      simp_all
  · rintro ⟨hm, hbits⟩
    have hbit (j : Nat) (hj : j < m + 1) : w.getLsbD j = decide (m = j) := by
      have h : (w.extractLsb' 0 (m + 1)).getLsbD j = _ := congrArg (·.getLsbD j) hbits
      rwa [BitVec.getLsbD_extractLsb', BitVec.getLsbD_ofNat, Nat.testBit_two_pow, Nat.zero_add, decide_eq_true hj,
        Bool.true_and, Bool.true_and] at h
    refine ⟨by simp [hbit], hm, fun j hj => ?_⟩
    rw [hbit j (by omega), decide_eq_false (by omega)]
    rfl

/-- A block is in the reserved mode exactly when its low byte is 0 (30_encoding R96). -/
theorem bc7ModeOf_eq_none {w : BitVec 128} : bc7ModeOf w = none ↔ w.extractLsb' 0 8 = 0#8 := by
  rw [bc7ModeOf, List.find?_range_eq_none]
  constructor
  · intro h
    refine BitVec.eq_of_getLsbD_eq fun j hj => ?_
    have hclear := h j hj
    simp_all
  · intro h j hj
    simpa [hj] using congrArg (·.getLsbD j) h

theorem decodeBc7_of_reserved {w : BitVec 128} (h : bc7ModeOf w = none) :
    decodeBc7 w = .bc7Reserved (w.extractLsb' 8 120) := by
  rw [decodeBc7, h]

/-- The encoder writes the mode bits of the instruction's own mode. -/
theorem bc7ModeOf_bc7Bits {i : Instr} {m : Nat} (h : Rule.modeOf i = some m) : bc7ModeOf (bc7Bits i) = some m := by
  cases i with
  | decode | dxt1 | dxt3 | dxt5 | bc7Reserved => cases h
  | _ => cases h; exact bc7ModeOf_eq_some.2 ⟨by decide, BitVec.extractLsb'_append_eq_right⟩

/-! ## The fields of a word

A field of a concatenation lies in one of its two parts, and neighbouring fields join to one. The width of a word is a
literal, which simp's index does not see as the sum of its parts' widths; so the index is switched off. -/

theorem decodeBc7_bc7Bits {i : Instr} {m : Nat} (h : Rule.modeOf i = some m) : decodeBc7 (bc7Bits i) = i := by
  rw [decodeBc7, bc7ModeOf_bc7Bits h]
  cases i with
  | decode | dxt1 | dxt3 | dxt5 | bc7Reserved => cases h
  | _ =>
    cases h
    simp only [bc7Bits, decodeBc7Mode0, decodeBc7Mode1, decodeBc7Mode2, decodeBc7Mode3, decodeBc7Mode4, decodeBc7Mode5,
      decodeBc7Mode6, decodeBc7Mode7]
    simp -index only [BitVec.extractLsb'_append_eq_of_le, BitVec.extractLsb'_append_eq_of_add_le,
      BitVec.extractLsb'_eq_self, Nat.reduceSub, Nat.reduceLeDiff, Nat.reduceAdd]

theorem decodeBc7_bc7Bits_reserved (rest : BitVec 120) :
    decodeBc7 (bc7Bits (.bc7Reserved rest)) = .bc7Reserved rest := by
  have hmode : bc7ModeOf (bc7Bits (.bc7Reserved rest)) = none :=
    bc7ModeOf_eq_none.2 BitVec.extractLsb'_append_eq_right
  rw [decodeBc7_of_reserved hmode]
  exact congrArg Instr.bc7Reserved BitVec.extractLsb'_append_eq_left

/-- The fields of a BC7 block laid end to end are the block: the layouts leave no gap (30_encoding R99 to R106). -/
theorem bc7Bits_decodeBc7 (w : BitVec 128) : bc7Bits (decodeBc7 w) = w := by
  cases hmode : bc7ModeOf w with
  | none =>
    rw [decodeBc7_of_reserved hmode, bc7Bits, ← bc7ModeOf_eq_none.1 hmode,
      BitVec.extractLsb'_append_extractLsb'_eq_extractLsb' (start₁ := 0) (len₁ := 8) rfl]
    exact BitVec.extractLsb'_eq_self
  | some m =>
    obtain ⟨hm, hbits⟩ := bc7ModeOf_eq_some.1 hmode
    rw [decodeBc7, hmode]
    interval_cases m <;>
    · simp only [Nat.reduceAdd, Nat.reducePow] at hbits
      simp only [bc7Bits, decodeBc7Mode0, decodeBc7Mode1, decodeBc7Mode2, decodeBc7Mode3, decodeBc7Mode4,
        decodeBc7Mode5, decodeBc7Mode6, decodeBc7Mode7, ← hbits]
      simp -index only [BitVec.extractLsb'_append_extractLsb'_eq_extractLsb']
      exact BitVec.extractLsb'_eq_self

theorem decodeDxt1_append (c0 c1 : BitVec 16) (sel : BitVec 32) :
    decodeDxt1 (sel ++ c1 ++ c0) = .dxt1 c0 c1 sel := by
  simp only [decodeDxt1]
  simp -index only [BitVec.extractLsb'_append_eq_of_le, BitVec.extractLsb'_append_eq_of_add_le,
    BitVec.extractLsb'_eq_self, Nat.reduceSub, Nat.reduceLeDiff, Nat.reduceAdd]

theorem decodeDxt3_append (alpha : BitVec 64) (c0 c1 : BitVec 16) (sel : BitVec 32) :
    decodeDxt3 (sel ++ c1 ++ c0 ++ alpha) = .dxt3 alpha c0 c1 sel := by
  simp only [decodeDxt3]
  simp -index only [BitVec.extractLsb'_append_eq_of_le, BitVec.extractLsb'_append_eq_of_add_le,
    BitVec.extractLsb'_eq_self, Nat.reduceSub, Nat.reduceLeDiff, Nat.reduceAdd]

theorem decodeDxt5_append (a0 a1 : BitVec 8) (asel : BitVec 48) (c0 c1 : BitVec 16) (sel : BitVec 32) :
    decodeDxt5 (sel ++ c1 ++ c0 ++ asel ++ a1 ++ a0) = .dxt5 a0 a1 asel c0 c1 sel := by
  simp only [decodeDxt5]
  simp -index only [BitVec.extractLsb'_append_eq_of_le, BitVec.extractLsb'_append_eq_of_add_le,
    BitVec.extractLsb'_eq_self, Nat.reduceSub, Nat.reduceLeDiff, Nat.reduceAdd]

theorem encode_decodeDxt1 (w : BitVec 64) : encode (decodeDxt1 w) = .block .dxt1 (leBytes 8 w.toNat) := by
  rw [decodeDxt1, encode]
  simp -index only [BitVec.extractLsb'_append_extractLsb'_eq_extractLsb', BitVec.extractLsb'_eq_self]

theorem encode_decodeDxt3 (w : BitVec 128) : encode (decodeDxt3 w) = .block .dxt3 (leBytes 16 w.toNat) := by
  rw [decodeDxt3, encode]
  simp -index only [BitVec.extractLsb'_append_extractLsb'_eq_extractLsb', BitVec.extractLsb'_eq_self]

theorem encode_decodeDxt5 (w : BitVec 128) : encode (decodeDxt5 w) = .block .dxt5 (leBytes 16 w.toNat) := by
  rw [decodeDxt5, encode]
  simp -index only [BitVec.extractLsb'_append_extractLsb'_eq_extractLsb', BitVec.extractLsb'_eq_self]

theorem encode_decodeBc7 (w : BitVec 128) : encode (decodeBc7 w) = .block .bc7 (leBytes 16 w.toNat) := by
  have hbytes : encode (decodeBc7 w) = .block .bc7 (bc7Bytes (decodeBc7 w)) := by
    unfold decodeBc7
    split <;> rfl
  rw [hbytes, bc7Bytes, bc7Bits_decodeBc7]

theorem decodeBc7_wellFormed (w : BitVec 128) : (decodeBc7 w).wellFormed = true := by
  unfold decodeBc7
  split <;> rfl

/-! ## The rule a block selects -/

/-- A BC7 block selects the rule of its mode (30_encoding R89). -/
theorem ruleNumber_decodeBc7 {w : BitVec 128} {m : Nat} (h : bc7ModeOf w = some m) :
    Rule.ruleNumber (decodeBc7 w) = 200 + m := by
  obtain ⟨hm, -⟩ := bc7ModeOf_eq_some.1 h
  rw [decodeBc7, h]
  interval_cases m <;> rfl

/-- Bits 0 to 7 of a block are its first byte (30_encoding R95). -/
theorem extractLsb'_blockBits_low (blk : List Byte) : (blockBits 128 blk).extractLsb' 0 8 = blk.getD 0 0 := by
  apply BitVec.eq_of_toNat_eq
  rw [BitVec.extractLsb'_toNat, blockBits, BitVec.toNat_ofNat, Nat.shiftRight_zero]
  cases blk with
  | nil => rfl
  | cons b bs =>
    have hb : b.toNat < 256 := b.isLt
    rw [leNat_cons, List.getD_cons_zero]
    omega

theorem getLsbD_blockBits_low (blk : List Byte) {k : Nat} (h : k < 8) :
    (blockBits 128 blk).getLsbD k = (blk.getD 0 0).getLsbD k := by
  rw [← extractLsb'_blockBits_low, BitVec.getLsbD_extractLsb', decide_eq_true h, Bool.true_and, Nat.zero_add]

/-- The first set bit of the low byte is the mode. -/
theorem bc7ModeOf_blockBits {blk : List Byte} {m : Nat} (hm : m < 8)
    (hlow : ∀ j, j < m → (blk.getD 0 0).getLsbD j = false) (hset : (blk.getD 0 0).getLsbD m = true) :
    bc7ModeOf (blockBits 128 blk) = some m := by
  refine List.find?_range_eq_some.2 ⟨?_, List.mem_range.2 hm, fun j hj => ?_⟩
  · rw [getLsbD_blockBits_low blk hm, hset]
  · rw [getLsbD_blockBits_low blk (by omega), hlow j hj]
    rfl

/-- Settles O3, by the format of the key; for BC7 the low byte holds the mode bits. -/
theorem decodeKeySelectsOneRule : Obligations.DecodeKeySelectsOneRule := by
  refine ⟨fun blk h => ⟨_, decode_dxt1 h, rfl⟩, fun blk h => ⟨⟨_, decode_dxt3 h, rfl⟩, ⟨_, decode_dxt5 h, rfl⟩,
    ⟨_, decode_bc7 h, fun hzero => ?_, fun m hm hlow hset => ?_⟩⟩, fun fmt blk hfmt => ?_⟩
  · rw [decodeBc7_of_reserved (bc7ModeOf_eq_none.2 ((extractLsb'_blockBits_low blk).trans hzero))]
    rfl
  · exact ruleNumber_decodeBc7 (bc7ModeOf_blockBits hm hlow hset)
  · apply decode_of_no_decoder
    obtain rfl | rfl | rfl | rfl := hfmt <;> rfl

/-! ## The round trips -/

/-- The decoder gives a BC7 instruction back once it does so at the level of words. -/
theorem decode_bc7Bytes {i : Instr} (h : decodeBc7 (bc7Bits i) = i) : decode (.block .bc7 (bc7Bytes i)) = .ok i := by
  rw [bc7Bytes, decode_bc7 (leBytes_length 16 _), blockBits_leBytes (by decide), h]

/-- Settles O1, by the instruction's row: a block's bytes give its word back, and the word its fields. -/
theorem decodeOfEncodeIsIdentity : Obligations.DecodeOfEncodeIsIdentity := by
  intro i hwf
  cases i with
  | decode data => exact if_pos hwf
  | dxt1 => rw [encode, decode_dxt1 (leBytes_length 8 _), blockBits_leBytes (by decide), decodeDxt1_append]
  | dxt3 => rw [encode, decode_dxt3 (leBytes_length 16 _), blockBits_leBytes (by decide), decodeDxt3_append]
  | dxt5 => rw [encode, decode_dxt5 (leBytes_length 16 _), blockBits_leBytes (by decide), decodeDxt5_append]
  | bc7Reserved rest => exact decode_bc7Bytes (decodeBc7_bc7Bits_reserved rest)
  | _ => exact decode_bc7Bytes (decodeBc7_bc7Bits rfl)

/-- Settles O2, by the format of the key: the fields give the word back, and the word its bytes. -/
theorem encodeOfDecodeIsIdentity : Obligations.EncodeOfDecodeIsIdentity := by
  intro e i h
  cases e with
  | command data =>
    simp only [decode, decodeCommand] at h
    split at h
    · next hstart => cases h; exact ⟨rfl, hstart⟩
    · cases h
  | block fmt blk =>
    obtain ⟨rfl, hlen, rfl⟩ | ⟨rfl, hlen, rfl⟩ | ⟨rfl, hlen, rfl⟩ | ⟨rfl, hlen, rfl⟩ := decode_block_eq_ok h
    · rw [encode_decodeDxt1, ← hlen, leBytes_blockBits (by rw [hlen]; decide)]
      exact ⟨rfl, rfl⟩
    · rw [encode_decodeDxt3, ← hlen, leBytes_blockBits (by rw [hlen]; decide)]
      exact ⟨rfl, rfl⟩
    · rw [encode_decodeDxt5, ← hlen, leBytes_blockBits (by rw [hlen]; decide)]
      exact ⟨rfl, rfl⟩
    · rw [encode_decodeBc7, ← hlen, leBytes_blockBits (by rw [hlen]; decide)]
      exact ⟨rfl, decodeBc7_wellFormed _⟩

end Sys2Proof.Machine
end

section
/-! The fields the BC7 datapath reads with its bit cursor, by random access into the block's word: the cursor reads one
field behind the other, and the sums of their widths are the bit ranges of 30_encoding R99 to R107. -/

namespace Sys2Proof.Machine

/-! ## A field at a position -/

/-- Byte `k` of a little-endian number. -/
theorem leNat_div_mod (bs : List Byte) (k : Nat) : leNat bs / 256 ^ k % 256 = (bs.getD k 0).toNat := by
  induction bs generalizing k with
  | nil => simp
  | cons b bs ih =>
    have hb : b.toNat < 256 := b.isLt
    cases k with
    | zero =>
      rw [leNat_cons, List.getD_cons_zero]
      omega
    | succ k =>
      have hrest : (b.toNat + 256 * leNat bs) / 256 = leNat bs := by omega
      rw [leNat_cons, Nat.pow_succ', ← Nat.div_div_eq_div_mul, hrest, ih, List.getD_cons_succ]

/-- Bit `k` of a block, through its byte (42_bc7 R180), is bit `k` of its number. -/
theorem blockBit_eq (bytes : List Byte) (k : Nat) : blockBit bytes k = leNat bytes / 2 ^ k % 2 := by
  have hk : 2 ^ k = 256 ^ (k / 8) * 2 ^ (k % 8) := by
    rw [show 256 = 2 ^ 8 from rfl, ← Nat.pow_mul, ← Nat.pow_add, Nat.div_add_mod]
  have hsplit : 256 = 2 ^ (k % 8) * (2 ^ (7 - k % 8) * 2) := by
    rw [← Nat.pow_succ, ← Nat.pow_add, show k % 8 + (7 - k % 8 + 1) = 8 by omega]
  rw [blockBit, ← leNat_div_mod, Nat.shiftRight_eq_div_pow, hk, ← Nat.div_div_eq_div_mul]
  generalize leNat bytes / 256 ^ (k / 8) = v
  conv_lhs => rw [hsplit]
  rw [Nat.mod_mul_right_div_self, Nat.mod_mul_left_mod]

/-- A field is the number of its bits (42_bc7 R181). -/
theorem blockField_eq_div_mod (bytes : List Byte) (p n : Nat) : blockField bytes p n = leNat bytes / 2 ^ p % 2 ^ n := by
  induction n generalizing p with
  | zero => simp [blockField, Nat.mod_one]
  | succ n ih =>
    rw [blockField, blockBit_eq, ih, Nat.pow_succ' (n := n), Nat.mod_mul, Nat.div_div_eq_div_mul, ← Nat.pow_succ]

/-- A field inside the block is a bit range of its word. -/
theorem blockField_eq_field (bytes : List Byte) {p n : Nat} (h : p + n ≤ 128) :
    blockField bytes p n = Rule.field (blockBits 128 bytes) p n := by
  have hword : 2 ^ 128 = 2 ^ p * 2 ^ (128 - p) := by rw [← Nat.pow_add, show p + (128 - p) = 128 by omega]
  rw [blockField_eq_div_mod, Rule.field, blockBits, BitVec.toNat_ofNat, hword, Nat.mod_mul_right_div_self,
    Nat.mod_mod_of_dvd _ (Nat.pow_dvd_pow 2 (by omega))]

@[simp] theorem field_zero {k : Nat} (w : BitVec k) (p : Nat) : Rule.field w p 0 = 0 := Nat.mod_one _

/-! ## Fields one behind the other -/

/-- The fields of widths `ns` that stand one behind the other from bit `p` on. -/
def fieldsFrom (w : BitVec 128) (p : Nat) (ns : List Nat) : List Nat :=
  ns.mapIdx fun j n => Rule.field w (p + (ns.take j).sum) n

theorem fieldsFrom_getD {ns : List Nat} {i n : Nat} (h : ns[i]? = some n) (w : BitVec 128) (p : Nat) :
    (fieldsFrom w p ns).getD i 0 = Rule.field w (p + (ns.take i).sum) n := by
  rw [fieldsFrom, List.getD_eq_getElem?_getD, List.getElem?_mapIdx, h]
  rfl

theorem fieldsFrom_congr {ns : List Nat} {p q : Nat} (w : BitVec 128) (h : ns = [] ∨ q = p) :
    fieldsFrom w p ns = fieldsFrom w q ns := by
  obtain rfl | rfl := h <;> rfl

/-- Reading fields that end at or below bit 128 gives the bit ranges of the word from their start `q` on, and leaves the
cursor at their end `e`. -/
theorem readMany_eq_fieldsFrom {ns : List Nat} {p q e : Nat} (bytes : List Byte) (he : p + ns.sum = e) (h : e ≤ 128)
    (hq : ns = [] ∨ q = p) : readMany ns ⟨bytes, p⟩ = .ok (fieldsFrom (blockBits 128 bytes) q ns, ⟨bytes, e⟩) := by
  subst he
  rw [readMany_of_le ns _ h, ← fieldsFrom_congr _ hq, fieldsFrom]
  congr 2
  refine List.mapIdx_eq_mapIdx_iff.2 fun j hj => blockField_eq_field bytes ?_
  have hsum : (ns.take (j + 1)).sum ≤ ns.sum := (List.take_sublist _ _).sum_le_sum fun _ _ => Nat.zero_le _
  rw [List.sum_take_succ ns j hj] at hsum
  dsimp only
  omega

/-! ## The layout of a mode -/

/-- A field of width 0 lies anywhere. -/
theorem field_congr {k p q n : Nat} (w : BitVec k) (h : n = 0 ∨ q = p) : Rule.field w p n = Rule.field w q n := by
  obtain rfl | rfl := h <;> simp

/-- Where the endpoints of mode `m` start: behind the mode bits and the header fields. -/
def endpointStart (m : Nat) : Nat := m + 1 + [(modeRow m).pb, (modeRow m).rb, (modeRow m).isb].sum

/-- The fields of a mode in the order they are read start where the layout says, a field that the mode lacks aside; the
secondary indices end the block (30_encoding R98 to R106). -/
theorem layout_eq_running_sums : ∀ m < 8,
    ((modeRow m).pb = 0 ∨ (Rule.layout m).shape = m + 1) ∧
    ((modeRow m).rb = 0 ∨ (Rule.layout m).rot = m + 1 + (modeRow m).pb) ∧
    ((modeRow m).isb = 0 ∨ (Rule.layout m).isel = m + 1 + ((modeRow m).pb + (modeRow m).rb)) ∧
    (List.replicate (modeRow m).np 1 = [] ∨
      (Rule.layout m).p = endpointStart m + (endpointWidths (modeRow m)).sum) ∧
    (Rule.layout m).i1 = endpointStart m + (endpointWidths (modeRow m)).sum + (List.replicate (modeRow m).np 1).sum ∧
    (secondaryWidths (modeRow m) = [] ∨ (Rule.layout m).i2 = 128 - (secondaryWidths (modeRow m)).sum) := by
  decide

/-- Endpoint `e`'s value of channel `ch` among the endpoint fields: its width, and its place in the layout (42_bc7 R186,
channel-major). -/
theorem endpointWidths_layout : ∀ m < 8, ∀ ch < 4, ∀ e < 2 * (modeRow m).ns,
    (endpointWidths (modeRow m))[ch * (2 * (modeRow m).ns) + e]? = some ((modeRow m).prec.getD ch 0) ∧
    ((modeRow m).prec.getD ch 0 = 0 ∨
      (Rule.layout m).chan.getD ch 0 + e * (modeRow m).prec.getD ch 0 =
        endpointStart m + ((endpointWidths (modeRow m)).take (ch * (2 * (modeRow m).ns) + e)).sum) := by
  decide

/-- A mode without p-bits augments no channel (30_encoding R97). -/
theorem precP_le_prec_of_no_pBits :
    ∀ m < 8, (modeRow m).np = 0 → ∀ ch < 4, (modeRow m).precP.getD ch 0 ≤ (modeRow m).prec.getD ch 0 := by
  decide

/-! ## The field read -/

/-- The registers after the field read of a block of mode `m`, by random access into its word. -/
def loadedBc7 (m : Nat) (blk : List Byte) : Bc7Regs :=
  let row := modeRow m
  let w := blockBits 128 blk
  let p := fieldsFrom w (Rule.layout m).p (List.replicate row.np 1)
  { cursor := ⟨blk, 128⟩
    mode := m
    shape := Rule.shape m w
    rot := Rule.rotation m w
    isel := Rule.selector m w
    ep := applyPBits row p (endpointRows row (fieldsFrom w (endpointStart m) (endpointWidths row)))
    p := p
    i1 := fieldsFrom w (Rule.layout m).i1 (primaryWidths row (Rule.shape m w))
    i2 := fieldsFrom w (Rule.layout m).i2 (secondaryWidths row) }

/-- The header fields (42_bc7 R185). -/
theorem headerFields_eq {m : Nat} (hm : m < 8) (w : BitVec 128) :
    fieldsFrom w (m + 1) [(modeRow m).pb, (modeRow m).rb, (modeRow m).isb] =
      [Rule.shape m w, Rule.rotation m w, Rule.selector m w] := by
  obtain ⟨hshape, hrot, hisel, -⟩ := layout_eq_running_sums m hm
  rw [Rule.shape, Rule.rotation, Rule.selector, ← field_congr w hshape, ← field_congr w hrot, ← field_congr w hisel]
  simp [fieldsFrom]

/-- The cursor's field read is the random access: it succeeds, and ends at bit 128 (42_bc7 R198). -/
theorem loadBc7_eq_loadedBc7 {m : Nat} (hm : m < 8) (blk : List Byte) : loadBc7 m blk = .ok (loadedBc7 m blk) := by
  obtain ⟨-, -, -, hp, hi1, hi2⟩ := layout_eq_running_sums m hm
  have hbits := bc7FieldBits_eq m hm (Rule.shape m (blockBits 128 blk)) (Nat.mod_lt _ (Nat.two_pow_pos _))
  rw [bc7FieldBits, ← endpointStart, ← hi1] at hbits
  have readHeader := readMany_eq_fieldsFrom blk (rfl : _ = endpointStart m) (by omega) (.inr rfl)
  have readEndpoints := readMany_eq_fieldsFrom blk (ns := endpointWidths (modeRow m)) (p := endpointStart m) rfl
    (by omega) (.inr rfl)
  have readPBits := readMany_eq_fieldsFrom blk hi1.symm (by omega) hp
  have readPrimary := readMany_eq_fieldsFrom blk (ns := primaryWidths (modeRow m) (Rule.shape m (blockBits 128 blk)))
    (p := (Rule.layout m).i1) (e := 128 - (secondaryWidths (modeRow m)).sum) (by omega) (by omega) (.inr rfl)
  have readSecondary := readMany_eq_fieldsFrom blk (e := 128) (by omega) le_rfl hi2
  rw [headerFields_eq hm] at readHeader
  simp only [loadBc7, readHeader, readEndpoints, readPBits, List.getD_cons_zero, readPrimary, readSecondary]
  rfl

/-! ## The fields -/

/-- The p-bits stand one behind the other (42_bc7 R187). -/
theorem loadedBc7_p {m j : Nat} (blk : List Byte) (hj : j < (modeRow m).np) :
    (loadedBc7 m blk).p.getD j 0 = Rule.pBit m (blockBits 128 blk) j := by
  have hwidth : (List.replicate (modeRow m).np 1)[j]? = some 1 := by rw [List.getElem?_replicate, if_pos hj]
  rw [loadedBc7, fieldsFrom_getD hwidth, Rule.pBit, List.take_replicate, List.sum_replicate, smul_eq_mul, Nat.mul_one,
    Nat.min_eq_left hj.le]

theorem endpointRows_getD {row : ModeRow} {e ch : Nat} (he : e < 2 * row.ns) (hch : ch < 4) (vals : List Nat) :
    ((endpointRows row vals).getD e []).getD ch 0 = vals.getD (ch * (2 * row.ns) + e) 0 := by
  simp [endpointRows, he, hch]

/-- The raw endpoint values (42_bc7 R186). -/
theorem endpointFields_eq_raw {m e ch : Nat} (hm : m < 8) (he : e < 2 * (modeRow m).ns) (hch : ch < 4)
    (w : BitVec 128) :
    (fieldsFrom w (endpointStart m) (endpointWidths (modeRow m))).getD (ch * (2 * (modeRow m).ns) + e) 0 =
      Rule.raw m w e ch := by
  obtain ⟨hwidth, hstart⟩ := endpointWidths_layout m hm ch hch e he
  rw [fieldsFrom_getD hwidth, Rule.raw, field_congr w hstart]

/-- P-bit application at one channel of one endpoint (42_bc7 R188). -/
theorem applyPBits_getD {row : ModeRow} {e ch : Nat} (he : e < 2 * row.ns) (hch : ch < 4) (p vals : List Nat) :
    ((applyPBits row p (endpointRows row vals)).getD e []).getD ch 0 =
      if row.np = 0 then vals.getD (ch * (2 * row.ns) + e) 0
      else withPBit row ch (vals.getD (ch * (2 * row.ns) + e) 0) (p.getD (e * row.np / (2 * row.ns)) 0) := by
  unfold applyPBits
  split
  · exact endpointRows_getD he hch vals
  · simp [endpointRows, he, hch]

/-- A p-bit becomes the value's lowest bit. -/
theorem withPBit_eq {row : ModeRow} {pbit : Nat} (h : pbit < 2) (ch v : Nat) :
    withPBit row ch v pbit = if row.precP.getD ch 0 > row.prec.getD ch 0 then 2 * v + pbit else v := by
  rw [withPBit, ← Nat.shiftLeft_add_eq_or_of_lt (i := 1) h, Nat.shiftLeft_eq, Nat.mul_comm]

theorem pBit_lt (m : Nat) (w : BitVec 128) (j : Nat) : Rule.pBit m w j < 2 := Nat.mod_lt _ (by decide)

/-- The endpoint channels after p-bit application (42_bc7 R188). -/
theorem loadedBc7_ep {m e ch : Nat} (hm : m < 8) (blk : List Byte) (he : e < 2 * (modeRow m).ns) (hch : ch < 4) :
    ((loadedBc7 m blk).ep.getD e []).getD ch 0 = Rule.augmented m (blockBits 128 blk) e ch := by
  have hep : ((loadedBc7 m blk).ep.getD e []).getD ch 0 = _ := applyPBits_getD he hch (loadedBc7 m blk).p _
  rw [hep, endpointFields_eq_raw hm he hch, Rule.augmented]
  split
  · next hnp => rw [if_neg (Nat.not_lt.2 (precP_le_prec_of_no_pBits m hm hnp ch hch))]
  · next hnp =>
    have hj : e * (modeRow m).np / (2 * (modeRow m).ns) < (modeRow m).np :=
      Nat.div_lt_of_lt_mul (Nat.mul_lt_mul_of_pos_right he (Nat.pos_of_ne_zero hnp))
    rw [loadedBc7_p blk hj, withPBit_eq (pBit_lt m _ _)]

/-- The secondary index of pixel `i` (42_bc7 R192): its width, and its place behind those before it. -/
theorem secondaryWidths_layout : ∀ m < 8, (modeRow m).ib2 ≠ 0 → ∀ i < 16,
    (secondaryWidths (modeRow m))[i]? = some (if i = 0 then (modeRow m).ib2 - 1 else (modeRow m).ib2) ∧
    (Rule.layout m).i2 + ((secondaryWidths (modeRow m)).take i).sum =
      if i = 0 then (Rule.layout m).i2 else (Rule.layout m).i2 + i * (modeRow m).ib2 - 1 := by
  decide

theorem loadedBc7_i2 {m i : Nat} (hm : m < 8) (blk : List Byte) (h2 : (modeRow m).ib2 ≠ 0) (hi : i < 16) :
    (loadedBc7 m blk).i2.getD i 0 = Rule.index2 m (blockBits 128 blk) i := by
  obtain ⟨hwidth, hstart⟩ := secondaryWidths_layout m hm h2 i hi
  rw [loadedBc7, fieldsFrom_getD hwidth, hstart, Rule.index2]
  split <;> rfl

theorem primaryWidths_getElem? (row : ModeRow) (shape : Nat) {i : Nat} (hi : i < 16) :
    (primaryWidths row shape)[i]? = some (if i ∈ anchors row.ns shape then row.ib - 1 else row.ib) := by
  rw [primaryWidths, List.getElem?_map, List.getElem?_range hi]
  rfl

theorem primaryWidths_take (row : ModeRow) (shape : Nat) {i : Nat} (hi : i < 16) :
    (primaryWidths row shape).take i =
      (List.range i).map fun j => if j ∈ anchors row.ns shape then row.ib - 1 else row.ib := by
  rw [primaryWidths, ← List.map_take, List.take_range, Nat.min_eq_left hi.le]

/-- The primary indices stand one behind the other, each with the width of its pixel (42_bc7 R191). -/
theorem loadedBc7_i1 {m i : Nat} (blk : List Byte) (hi : i < 16) :
    (loadedBc7 m blk).i1.getD i 0 =
      Rule.field (blockBits 128 blk)
        ((Rule.layout m).i1 + ((List.range i).map fun j =>
          if j ∈ anchors (modeRow m).ns (loadedBc7 m blk).shape then (modeRow m).ib - 1 else (modeRow m).ib).sum)
        (if i ∈ anchors (modeRow m).ns (loadedBc7 m blk).shape then (modeRow m).ib - 1 else (modeRow m).ib) := by
  rw [← primaryWidths_take _ _ hi, ← fieldsFrom_getD (primaryWidths_getElem? _ _ hi), loadedBc7]

theorem zero_mem_anchors (ns shape : Nat) : 0 ∈ anchors ns shape := by
  unfold anchors
  split <;> exact List.mem_cons_self

/-- Settles O6: what the cursor reads is the random access, field by field. -/
theorem bc7FieldsLieAtTheirLayout : Obligations.Bc7FieldsLieAtTheirLayout := by
  intro m blk hm _
  refine ⟨loadedBc7 m blk, loadBc7_eq_loadedBc7 hm blk, rfl, rfl, rfl, rfl, rfl, fun j hj => ?_, fun e ch he hch => ?_,
    fun i hi h2 => ?_⟩
  · exact loadedBc7_p blk hj
  · exact loadedBc7_ep hm blk he hch
  · exact loadedBc7_i2 hm blk h2 hi

/-- Settles O7: the primary indices of the same field read, and the anchors by the number of subsets. -/
theorem bc7IndexPositionsFollowAnchors : Obligations.Bc7IndexPositionsFollowAnchors :=
  ⟨fun m blk hm _ => ⟨loadedBc7 m blk, loadBc7_eq_loadedBc7 hm blk, fun _ => loadedBc7_i1 blk⟩, zero_mem_anchors⟩

end Sys2Proof.Machine
end

section
/-! How an encoding reaches exec: a host write to CTRL is the one command (30_encoding R114), and a step runs what the
decoder gives (R80). -/

namespace Sys2Proof.Machine

/-! ## The command -/

/-- The command reads no bit of its data but START (30_encoding R114). -/
theorem exec_decode_congr {v v' : Word} (h : v.getLsbD 0 = v'.getLsbD 0) (s : State) :
    exec (.decode v) s = exec (.decode v') s := by
  rw [exec, exec, execDecode, execDecode, h]

/-- Settles O4, from what a command is. -/
theorem controlWriteIsTheOnlyCommand : Obligations.ControlWriteIsTheOnlyCommand := by
  refine ⟨fun v hv => ?_, fun a i h => commandOf_eq_some h, fun v v' s hv hv' => ?_⟩
  · rw [commandOf_ctrl, if_pos hv]
  · exact exec_decode_congr (hv.trans hv'.symm) s

/-- Settles O5, by running the decoder. -/
theorem sampleEncodingsDecode : Obligations.SampleEncodingsDecode :=
  ⟨by decide, by decide +kernel, by decide +kernel, by decide +kernel, by decide +kernel⟩

/-! ## The step -/

/-- A CTRL write that decodes is the command it decodes to. -/
theorem commandOf_of_decode {v : Word} {i : Instr} (h : decode (.command v) = .ok i) :
    commandOf (.regWrite .word 0 v) = some i := by
  rw [commandOf, h]
  rfl

/-- The fetch does not look at the outside world's turns. -/
theorem fetchBlock_turns (s : State) (turns : List Turn) : fetchBlock { s with turns := turns } = fetchBlock s := by
  have hbytes : inBytes { s with turns := turns } (blockAddr s) s.loc.bs = inBytes s (blockAddr s) s.loc.bs :=
    inBytes_congr fun _ _ _ => rfl
  unfold fetchBlock
  rw [← hbytes]
  rfl

/-- Settles O55, by who moves next: the HOST's write, or the ENGINE with the current block. -/
theorem stepRunsTheDecodedInstruction : Obligations.StepRunsTheDecodedInstruction := by
  refine ⟨fun s v rest i hturns hi => ?_, fun s i hphase hfits hi => ?_⟩
  · exact step_of_run (nextMove_of_command hturns (commandOf_of_decode hi))
  · have hfetch : fetchBlock s = .ok i := fetchBlock_eq_ok.2 ⟨hfits, hi⟩
    refine ⟨fun hturns => step_of_run ?_, fun n rest hturns => step_of_run ?_⟩
    · rw [nextMove_of_nil hturns]
      exact engineMove_decode hphase hfetch
    · rw [nextMove_of_ticks_succ hturns]
      exact engineMove_decode hphase ((fetchBlock_turns s _).trans hfetch)

end Sys2Proof.Machine
end

section
/-! The container's statements about a whole DECODE: the walk from any state in the closed form of 40_container R147, the
header mirrors after every ending (R127), and the pass-through (R136, 44_raster R260). -/

namespace Sys2Proof.Machine

/-! ## The walk in closed form, from any state -/

/-- The exact shift of a level dimension is a floor division (40_container R139, 00_scope R12). -/
theorem levelDim_eq (base L : Nat) : levelDim base L = max 1 (base / 2 ^ L) :=
  congrArg (max 1) (Nat.shiftRight_eq_div_pow base L)

/-- The size of a level is its blocks times the bytes per block (40_container R140). -/
theorem sizeOfLevel_eq_blocks (s : State) (L : Nat) :
    sizeOfLevel s L =
      (max 1 (s.parse.baseW / 2 ^ L) + 3) / 4 * ((max 1 (s.parse.baseH / 2 ^ L) + 3) / 4) * s.loc.bs := by
  rw [sizeOfLevel, levelSize_eq (levelDim_pos _ L), levelDim_eq, levelDim_eq, blocksAlong, blocksAlong]

/-- An unset request matches level 0 of the requested face, and no other level (40_container R141). -/
theorem matchLevel_of_unset {s : State} (h : s.reqWidth.toInt ≤ 0 ∨ s.reqHeight.toInt ≤ 0) (L : Nat) :
    matchLevel s s.reqSlice.toNat L = decide (L = 0) := by
  have hbase : wantBase s = true := decide_eq_true h
  simp [matchLevel, hbase]

/-- A set request matches the levels of the requested face that have its size (40_container R141). -/
theorem matchLevel_of_set {s : State} (h : ¬ (s.reqWidth.toInt ≤ 0 ∨ s.reqHeight.toInt ≤ 0)) (L : Nat) :
    matchLevel s s.reqSlice.toNat L =
      (decide (s.reqWidth.toInt = (max 1 (s.parse.baseW / 2 ^ L) : Nat)) &&
        decide (s.reqHeight.toInt = (max 1 (s.parse.baseH / 2 ^ L) : Nat))) := by
  have hbase : wantBase s = false := decide_eq_false h
  simp only [matchLevel, hbase, levelDim_eq, sext32, decide_true, Bool.true_and, Bool.false_and, Bool.false_or,
    Bool.not_false]

/-- The first match of the walk: level 0 under an unset request, since there is one, and else the least level of the
requested size (40_container R147). -/
theorem firstMatch_closed {s : State} (h : 0 < s.parse.mips) :
    firstMatch s =
      if s.reqSlice.toNat < (if s.parse.cubemap then 6 else 1) then
        if s.reqWidth.toInt ≤ 0 ∨ s.reqHeight.toInt ≤ 0 then some 0
        else (List.range s.parse.mips).find? fun L =>
          decide (s.reqWidth.toInt = (max 1 (s.parse.baseW / 2 ^ L) : Nat)) &&
            decide (s.reqHeight.toInt = (max 1 (s.parse.baseH / 2 ^ L) : Nat))
      else none := by
  unfold firstMatch sliceCount
  by_cases hunset : s.reqWidth.toInt ≤ 0 ∨ s.reqHeight.toInt ≤ 0
  · have hzero : (List.range s.parse.mips).find? (fun L => decide (L = 0)) = some 0 :=
      List.find?_range_eq_some.2 ⟨rfl, List.mem_range.2 h, fun j hj => absurd hj (Nat.not_lt_zero j)⟩
    rw [if_pos hunset, funext (matchLevel_of_unset hunset), hzero]
  · rw [if_neg hunset, funext (matchLevel_of_set hunset)]

/-- Settles O35: the walk's closed form, with the first match, the sizes and the dimensions written out. -/
theorem walkIsTheClosedForm : Obligations.WalkIsTheClosedForm := by
  intro s hmips size below found
  have hsize : sizeOfLevel s = size := funext (sizeOfLevel_eq_blocks s)
  have hbelow : bytesBelow s = below := by unfold bytesBelow; rw [hsize]
  have hfound : firstMatch s = found := firstMatch_closed hmips
  rw [walkChain_eq, hfound]
  congr 1
  funext L
  rw [foundAt, locatedAt, hbelow, hsize, levelDim_eq, levelDim_eq]

/-! ## The header mirrors -/

/-- PARSE copies the stream as it stood before the start of the DECODE: the start changes no byte of IN. -/
theorem mirroredHeader_startDecode (s : State) : mirroredHeader (startDecode s) = mirroredHeader s := by
  have hdx10 : streamHasDx10 (startDecode s) = streamHasDx10 s := by
    simp only [streamHasDx10, inWord_startDecode]
  simp only [mirroredHeader, dx10Word, hdx10, inWord_startDecode]

/-- Only PARSE writes the mirrors, so every ending leaves them as PARSE did (40_container R127). -/
theorem DecodeEnding.hdr {s t : State} (h : DecodeEnding s t) :
    t.hdr = if Rule.HeaderWhole s then mirroredHeader s else HeaderRegs.zero := by
  rw [← mirroredHeader_startDecode]
  cases h with
  | badHeader f hh hf ht => rw [if_neg hh, ht]; rfl
  | passThrough hh hfmt ht => rw [if_pos hh, ht]; rfl
  | noDecoder hh hfmt ht => rw [if_pos hh, ht]; rfl
  | notFound hh hfmt hl ht => rw [if_pos hh, ht]; rfl
  | io L hh hfmt hl hend ht => rw [if_pos hh, ht]; rfl
  | capacity L hh hfmt hl hend hcap ht => rw [if_pos hh, ht]; rfl
  | raster L hh hfmt hl hend hcap ht =>
    rw [if_pos hh]
    obtain ⟨v, hv, rfl⟩ | ⟨f, v, -, hv, rfl⟩ := rasterState_ending hfmt hend hcap ht <;>
      exact (congrArg State.hdr hv.frame :)

/-- HDR_INFO by the rules for its two bits (10_state R37). -/
theorem hdrInfoWord_eq (hasDx10 cubemap : Bool) :
    hdrInfoWord hasDx10 cubemap =
      BitVec.ofNat 32 (1 + (if hasDx10 then 2 else 0) + (if cubemap then 4 else 0)) := by
  cases hasDx10 <;> cases cubemap <;> rfl

/-- The cubemap bit of caps2 (40_container R124). -/
theorem isCubemap_inWord (s : State) : isCubemap (inWord s 112) = Rule.cubemap s := by
  rw [isCubemap, BitVec.getLsbD, inWord_toNat, Rule.cubemap]

/-- The normalised mip count (40_container R123). -/
theorem normaliseMips_inWord (s : State) : normaliseMips (inWord s 28) = Rule.mips s := mips_eq s .parse

theorem headerLength_dx10 (s : State) : headerLength (Rule.dx10 s) = Rule.headerLength s := rfl

/-- Settles O31: the mirrors after any ending, field by field as the rules give them. -/
theorem headerMirrors : Obligations.HeaderMirrors := by
  intro data s hcmd
  obtain ⟨t, ht⟩ := runDecode_answers s
  have hhdr := (decodeEnding_of_runDecode ht).hdr
  refine ⟨t, (exec_decode_of_commanded hcmd).trans ht, fun hbad => hhdr.trans (if_neg hbad), fun hwhole => ?_⟩
  rw [hhdr, if_pos hwhole]
  simp only [mirroredHeader, dx10Word, streamHasDx10_eq, hdrInfoWord_eq, isCubemap_inWord, normaliseMips_inWord,
    headerLength_dx10]

/-! ## The pass-through -/

/-- A pass-through ends a DECODE behind the resolver and in no other way (40_container R136). -/
theorem DecodeEnding.of_passThrough {s t : State} (h : DecodeEnding s t) (hh : Rule.HeaderWhole s)
    (hfmt : Rule.format s = .passThrough) : t = completePassThrough (formatState s) := by
  cases h with
  | badHeader f hbad => exact absurd hh hbad
  | passThrough _ _ ht => exact ht
  | noDecoder _ hno => simp [hfmt] at hno
  | notFound _ hdec | io _ _ hdec | capacity _ _ hdec | raster _ _ hdec => exact absurd hfmt hdec.1

/-- A whole header lies in the stream (40_container R121, R126). -/
theorem headerLength_le_inLen {s : State} (h : Rule.HeaderWhole s) : Rule.headerLength s ≤ s.inLen.toNat := by
  obtain ⟨h128, -, h148⟩ := h
  unfold Rule.headerLength
  split
  · next hdx10 => exact h148 hdx10
  · exact h128

theorem formatState_hl (s : State) : (formatState s).parse.hl = Rule.headerLength s := hl_eq s .resolve

/-- Settles O33: the completion runs in the state behind the resolver, whose results are those of the start. -/
theorem passThroughCompletes : Obligations.PassThroughCompletes := by
  intro data s hcmd hh hfmt
  obtain ⟨t, ht⟩ := runDecode_answers s
  obtain rfl := (decodeEnding_of_runDecode ht).of_passThrough hh hfmt
  have hle := headerLength_le_inLen hh
  have hlt := s.inLen.isLt
  refine ⟨_, (exec_decode_of_commanded hcmd).trans ht, rfl, rfl, rfl, ?_, ?_, hle, rfl, rfl, rfl, rfl, rfl, rfl, rfl⟩
  · rw [completePassThrough_ptOffset, formatState_hl, BitVec.toNat_ofNat, Nat.mod_eq_of_lt (by omega)]
  · have hlen : streamLength (formatState s) = s.inLen.toNat := rfl
    rw [completePassThrough_ptLength, formatState_hl, hlen, BitVec.toNat_ofNat, Nat.mod_eq_of_lt (by omega)]

end Sys2Proof.Machine
end

section
/-! The DXT palettes (41_dxt): the machine's expansion, interpolation and alpha palette are the closed forms of the rules,
and what follows for their entries. -/

namespace Sys2Proof.Machine

/-! ## Expansion -/

/-- The shifts of the 5-bit expansion are the floor divisions of 41_dxt R150. -/
theorem exp5_eq_expand5 (v : Nat) : exp5 v = Rule.expand5 v := by
  simp [exp5, Rule.expand5, Nat.shiftRight_eq_div_pow]

/-- The shifts of the 6-bit expansion are the floor divisions of 41_dxt R151. -/
theorem exp6_eq_expand6 (v : Nat) : exp6 v = Rule.expand6 v := by
  simp [exp6, Rule.expand6, Nat.shiftRight_eq_div_pow]

theorem requantise_exp5 {v : Nat} (h : v < 32) : (31 * exp5 v + 127) / 255 = v := by
  rw [exp5_eq_expand5, Rule.expand5]
  omega

theorem requantise_exp6 {v : Nat} (h : v < 64) : (63 * exp6 v + 127) / 255 = v := by
  rw [exp6_eq_expand6, Rule.expand6]
  omega

theorem expand5_lt {v : Nat} (h : v < 32) : Rule.expand5 v < 256 := by
  unfold Rule.expand5
  omega

theorem expand6_lt {v : Nat} (h : v < 64) : Rule.expand6 v < 256 := by
  unfold Rule.expand6
  omega

/-- Settles O10: the two tables and the four lists of differences, each evaluated. -/
theorem expansionTablesAreTheFormula : Obligations.ExpansionTablesAreTheFormula := by
  unfold Obligations.ExpansionTablesAreTheFormula
  refine ⟨?_, ?_, ?_, ?_, ?_, ?_⟩ <;> decide

/-- Settles O11: re-quantising undoes the expansion, and so expanding again gives the same value. -/
theorem expansionIsIdempotent : Obligations.ExpansionIsIdempotent :=
  ⟨fun _ h => ⟨requantise_exp5 h, congrArg exp5 (requantise_exp5 h)⟩,
    fun _ h => ⟨requantise_exp6 h, congrArg exp6 (requantise_exp6 h)⟩⟩

/-! ## The channels of an RGB565 word -/

theorem field_lt {k : Nat} (w : BitVec k) (lo n : Nat) : Rule.field w lo n < 2 ^ n := Nat.mod_lt _ (Nat.two_pow_pos n)

theorem red_lt (c : BitVec 16) : Rule.red c < 256 := expand5_lt (field_lt c 11 5)

theorem green_lt (c : BitVec 16) : Rule.green c < 256 := expand6_lt (field_lt c 5 6)

theorem blue_lt (c : BitVec 16) : Rule.blue c < 256 := expand5_lt (field_lt c 0 5)

/-- The channels of a word are its three fields, expanded (41_dxt R152). -/
theorem rgb565To888_eq (c : BitVec 16) : rgb565To888 c = (Rule.red c, Rule.green c, Rule.blue c) := by
  simp [rgb565To888, Rule.red, Rule.green, Rule.blue, Rule.field, exp5_eq_expand5, exp6_eq_expand6]

/-! ## The colour palette -/

theorem opaquePalette_eq_true_iff (c0 c1 : BitVec 16) (punch : Bool) :
    Rule.opaquePalette c0 c1 punch = true ↔ c1.toNat < c0.toNat ∨ punch = false := by
  simp [Rule.opaquePalette]

theorem opaquePalette_eq_false_iff (c0 c1 : BitVec 16) (punch : Bool) :
    Rule.opaquePalette c0 c1 punch = false ↔ c0.toNat ≤ c1.toNat ∧ punch = true := by
  simp [Rule.opaquePalette]

/-- The palette built is the palette of the rule, entry by entry (41_dxt R155). -/
theorem palette_eq_map_colour (c0 c1 : BitVec 16) (punch : Bool) :
    palette c0 c1 punch = (List.range 4).map (Rule.colour c0 c1 punch) := by
  unfold palette
  rw [rgb565To888_eq, rgb565To888_eq]
  split
  · next h =>
    have hfull := (opaquePalette_eq_true_iff c0 c1 punch).2 h
    simp [List.range, List.range.loop, Rule.colour, hfull, Rule.mix, mixPixel, mkPixel]
  · next h =>
    have hfull : Rule.opaquePalette c0 c1 punch = false := by rwa [← Bool.not_eq_true, opaquePalette_eq_true_iff]
    simp [List.range, List.range.loop, Rule.colour, hfull, Rule.mix, mixPixel, mkPixel]

theorem palette_getElem? {k : Nat} (h : k < 4) (c0 c1 : BitVec 16) (punch : Bool) :
    (palette c0 c1 punch)[k]? = some (Rule.colour c0 c1 punch k) := by
  rw [palette_eq_map_colour, List.getElem?_map, List.getElem?_range h, Option.map_some]

/-- Every entry but transparent black lies between its two endpoints (41_dxt R155). -/
theorem mix_between {full : Bool} {k : Nat} (hk : k < 4) (hfull : k = 3 → full = true) (x y : Nat) :
    min x y ≤ Rule.mix full k x y ∧ Rule.mix full k x y ≤ max x y := by
  match k with
  | 0 | 1 => simp [Rule.mix]
  | 2 =>
    simp only [Rule.mix]
    split <;> omega
  | 3 =>
    simp only [Rule.mix, hfull rfl, if_true]
    omega

/-- An entry between two bytes is a byte, so narrowing it loses nothing. -/
theorem toNat_mix_between {full : Bool} {k x y : Nat} (hk : k < 4) (hfull : k = 3 → full = true) (hx : x < 256)
    (hy : y < 256) :
    min x y ≤ (BitVec.ofNat 8 (Rule.mix full k x y)).toNat ∧
      (BitVec.ofNat 8 (Rule.mix full k x y)).toNat ≤ max x y := by
  have hmix := mix_between hk hfull x y
  rw [BitVec.toNat_ofNat, Nat.mod_eq_of_lt (by omega)]
  exact hmix

theorem colour_a_of_opaque {c0 c1 : BitVec 16} {punch : Bool} {k : Nat}
    (h : k = 3 → Rule.opaquePalette c0 c1 punch = true) : (Rule.colour c0 c1 punch k).a = 255 := by
  have hnot : ¬ (k = 3 ∧ Rule.opaquePalette c0 c1 punch = false) := fun ⟨hk, hf⟩ => by simp [h hk] at hf
  exact if_neg hnot

/-- Entry 3 of the 1-bit-alpha palette is transparent black (41_dxt R155). -/
theorem colour_three_of_punch {c0 c1 : BitVec 16} (h : c0.toNat ≤ c1.toNat) :
    Rule.colour c0 c1 true 3 = ⟨0, 0, 0, 0⟩ := by
  simp [Rule.colour, (opaquePalette_eq_false_iff c0 c1 true).2 ⟨h, rfl⟩, Rule.mix]

/-- Settles O12: the entry is that of the rule, and each channel of it mixes two bytes. -/
theorem paletteLiesBetweenEndpoints : Obligations.PaletteLiesBetweenEndpoints := by
  intro c0 c1 punch k hk hopaque
  have hfull : k = 3 → Rule.opaquePalette c0 c1 punch = true := fun h =>
    (opaquePalette_eq_true_iff c0 c1 punch).2 (hopaque h)
  exact ⟨_, palette_getElem? hk c0 c1 punch, colour_a_of_opaque hfull,
    toNat_mix_between hk hfull (red_lt c0) (red_lt c1), toNat_mix_between hk hfull (green_lt c0) (green_lt c1),
    toNat_mix_between hk hfull (blue_lt c0) (blue_lt c1)⟩

/-! ## The laws of the interpolator -/

/-- Between equal endpoints every entry but transparent black is the endpoint. -/
theorem mix_self {full : Bool} {k : Nat} (hk : k < 4) (hfull : k = 3 → full = true) (x : Nat) :
    Rule.mix full k x x = x := by
  have := mix_between hk hfull x x
  omega

/-- With equal endpoints every entry but transparent black is the endpoint colour (41_dxt R156). -/
theorem colour_self {punch : Bool} {k : Nat} (hk : k < 4) (hpunch : k = 3 → punch = false) (c : BitVec 16) :
    Rule.colour c c punch k =
      ⟨BitVec.ofNat 8 (Rule.red c), BitVec.ofNat 8 (Rule.green c), BitVec.ofNat 8 (Rule.blue c), 255⟩ := by
  have hfull : k = 3 → Rule.opaquePalette c c punch = true := fun h =>
    (opaquePalette_eq_true_iff c c punch).2 (.inr (hpunch h))
  rw [← colour_a_of_opaque hfull]
  simp only [Rule.colour, mix_self hk hfull]

/-- `chan` is the channel of a pixel whose endpoint values `value` gives. -/
abbrev IsChannel (value : BitVec 16 → Nat) (chan : Pixel → Byte) : Prop :=
  (value = Rule.red ∧ chan = Pixel.r) ∨ (value = Rule.green ∧ chan = Pixel.g) ∨ (value = Rule.blue ∧ chan = Pixel.b)

/-- A channel of the palette mixes that channel of the two endpoints. -/
theorem palette_map_channel {value : BitVec 16 → Nat} {chan : Pixel → Byte} (h : IsChannel value chan)
    {c0 c1 : BitVec 16} {punch full : Bool} (hfull : Rule.opaquePalette c0 c1 punch = full) {x y : Nat}
    (hx : value c0 = x) (hy : value c1 = y) :
    (palette c0 c1 punch).map (fun p => (chan p).toNat) =
      (List.range 4).map fun k => (BitVec.ofNat 8 (Rule.mix full k x y)).toNat := by
  subst hfull hx hy
  rw [palette_eq_map_colour, List.map_map]
  obtain ⟨rfl, rfl⟩ | ⟨rfl, rfl⟩ | ⟨rfl, rfl⟩ := h <;> rfl

/-- Settles O13: equal endpoints give the endpoint colour, and a channel with endpoints 0 and 255 is a mix of two numbers
that evaluates to the listed one. -/
theorem interpolatorLaws : Obligations.InterpolatorLaws := by
  have hopaque c0 c1 := (opaquePalette_eq_true_iff c0 c1 false).2 (.inr rfl)
  have hpunch {c0 c1} hle := (opaquePalette_eq_false_iff c0 c1 true).2 ⟨hle, rfl⟩
  refine ⟨fun c => ⟨?_, ?_⟩, fun c k hk => ?_, fun value chan c0 c1 h => ⟨?_, ?_, ?_, ?_⟩, by decide⟩
  · rw [palette_getElem? (by decide), palette_getElem? (by decide), colour_self (by decide) (by decide),
      colour_self (by decide) (by decide)]
  · rw [palette_getElem? (by decide), colour_three_of_punch le_rfl]
  · rw [palette_getElem? hk, colour_self hk fun _ => rfl]
  · exact palette_map_channel h (hopaque c0 c1)
  · exact palette_map_channel h (hopaque c0 c1)
  · exact fun h0 h1 hle => palette_map_channel h (hpunch hle) h0 h1
  · exact fun h0 h1 hle => palette_map_channel h (hpunch hle) h0 h1

/-! ## The alpha palette -/

/-- The alpha palette built is that of the rule, entry by entry (41_dxt R160). -/
theorem alphaPalette_eq_map_alphaEntry (a0 a1 : Byte) :
    alphaPalette a0 a1 = (List.range 8).map fun k => BitVec.ofNat 8 (Rule.alphaEntry a0 a1 k) := by
  unfold alphaPalette
  dsimp only
  split
  · next h => simp [List.range, List.range.loop, Rule.alphaEntry, h]
  · next h => simp [List.range, List.range.loop, Rule.alphaEntry, h]

theorem alphaPalette_getElem? {k : Nat} (h : k < 8) (a0 a1 : Byte) :
    (alphaPalette a0 a1)[k]? = some (BitVec.ofNat 8 (Rule.alphaEntry a0 a1 k)) := by
  rw [alphaPalette_eq_map_alphaEntry, List.getElem?_map, List.getElem?_range h, Option.map_some]

/-- A floored weighted mean lies between the two values. -/
theorem weightedMean_between {u v n : Nat} (hn : 0 < n) (huv : u + v = n) (x y : Nat) :
    min x y ≤ (u * x + v * y) / n ∧ (u * x + v * y) / n ≤ max x y := by
  subst huv
  have hlow : min x y * (u + v) ≤ u * x + v * y := by
    rw [Nat.mul_comm, Nat.add_mul]
    exact Nat.add_le_add (Nat.mul_le_mul_left u (min_le_left x y)) (Nat.mul_le_mul_left v (min_le_right x y))
  have hhigh : u * x + v * y ≤ max x y * (u + v) := by
    rw [Nat.mul_comm (max x y), Nat.add_mul]
    exact Nat.add_le_add (Nat.mul_le_mul_left u (le_max_left x y)) (Nat.mul_le_mul_left v (le_max_right x y))
  exact ⟨(Nat.le_div_iff_mul_le hn).2 hlow, Nat.div_le_of_le_mul (by rwa [Nat.mul_comm (u + v)])⟩

/-- Every entry but the fixed 0 and 255 lies between the two endpoints (41_dxt R160). -/
theorem alphaEntry_between {a0 a1 : Byte} {k : Nat} (hk : k < 8) (h : k < 6 ∨ a1.toNat < a0.toNat) :
    min a0.toNat a1.toNat ≤ Rule.alphaEntry a0 a1 k ∧ Rule.alphaEntry a0 a1 k ≤ max a0.toNat a1.toNat := by
  unfold Rule.alphaEntry
  split
  · exact ⟨min_le_left _ _, le_max_left _ _⟩
  split
  · exact ⟨min_le_right _ _, le_max_right _ _⟩
  split
  · exact weightedMean_between (by decide) (by omega) _ _
  rw [if_neg (by omega), if_neg (by omega)]
  exact weightedMean_between (by decide) (by omega) _ _

/-- Every entry of the alpha palette fits a byte. -/
theorem alphaEntry_lt {k : Nat} (hk : k < 8) (a0 a1 : Byte) : Rule.alphaEntry a0 a1 k < 256 := by
  by_cases h : k < 6 ∨ a1.toNat < a0.toNat
  · have hbetween := alphaEntry_between hk h
    have h0 : a0.toNat < 256 := a0.isLt
    have h1 : a1.toNat < 256 := a1.isLt
    omega
  · have hfixed : k = 6 ∨ k = 7 := by omega
    have hle : ¬ a0.toNat > a1.toNat := by omega
    obtain rfl | rfl := hfixed <;> simp [Rule.alphaEntry, hle]

/-- Settles O14: the entries of the rule, and that they are means of the endpoints. -/
theorem alphaPaletteEntriesAndBounds : Obligations.AlphaPaletteEntriesAndBounds := fun a0 a1 _ hk =>
  ⟨alphaPalette_getElem? hk a0 a1, alphaEntry_lt hk a0 a1, alphaEntry_between hk⟩

end Sys2Proof.Machine
end

section
/-! A block that completes (44_raster R254): where its pixels are in OUT, where the sequencer goes and what stays, said
once for any pixels; then the pixels of the three DXT instructions (41_dxt R157, R159, R161). -/

namespace Sys2Proof.Machine

/-! ## The end of a block -/

/-- A byte behind the start of a pixel inside the image is that pixel's. -/
theorem covers_pixelAddr_add {r : RasterRegs} {i c : Nat} (hx : 4 * r.blkX + i % 4 < r.W)
    (hy : 4 * r.blkY + i / 4 < r.H) (hc : c < 4) : Covers r i (pixelAddr r.W (4 * r.blkX + i % 4) (4 * r.blkY + i / 4) + c) :=
  ⟨hx, hy, Nat.le_add_right _ _, Nat.add_lt_add_left hc _⟩

theorem Covers.exists_eq_add {r : RasterRegs} {i a : Nat} (h : Covers r i a) :
    4 * r.blkX + i % 4 < r.W ∧ 4 * r.blkY + i / 4 < r.H ∧
      ∃ c < 4, a = pixelAddr r.W (4 * r.blkX + i % 4) (4 * r.blkY + i / 4) + c := by
  obtain ⟨hx, hy, hle, hlt⟩ := h
  exact ⟨hx, hy, a - pixelAddr r.W (4 * r.blkX + i % 4) (4 * r.blkY + i / 4), by omega, by omega⟩

@[simp] theorem afterBlock_outMem (px : List Pixel) (s : State) :
    (afterBlock px s).outMem = writePixels s.ras s.outMem 0 px := by simp [afterBlock]

theorem blockWritten_afterBlock (px : Nat → Pixel) (s : State) :
    BlockWritten px s (afterBlock ((List.range 16).map px) s) := by
  unfold BlockWritten
  rw [afterBlock_outMem]
  refine ⟨fun i hi hx hy c hc => ?_, fun a ha => read_writePixels_frame _ _ _ _ _ fun i _ hi hcov => ?_⟩
  · have hpx : ((List.range 16).map px)[i - 0]? = some (px i) := by simp [hi]
    have hbyte : c < (pixelBytes (px i)).length := hc
    rw [← pixelAddr, read_writePixels_hit _ _ _ _ i _ _ (Nat.zero_le _) hpx (covers_pixelAddr_add hx hy hc),
      Nat.add_sub_cancel_left, List.getD_eq_getElem?_getD, List.getElem?_eq_getElem hbyte, Option.getD_some]
  · obtain ⟨hx, hy, c, hc, rfl⟩ := hcov.exists_eq_add
    exact ha i (by simpa using hi) hx hy c hc rfl

theorem blockAdvanced_afterBlock (px : List Pixel) (s : State) : BlockAdvanced s (afterBlock px s) := by
  unfold afterBlock
  refine ⟨nextBlock_ras_W _, nextBlock_ras_H _, nextBlock_ras_BW _, nextBlock_ras_BH _,
    fun hin => ?_, fun hlast => ?_⟩ <;> rw [nextBlock_ras_blkX, nextBlock_ras_blkY, nextBlock_phase]
  · exact ⟨if_pos hin, if_pos hin, if_pos hin⟩
  · exact ⟨if_neg hlast, if_neg hlast, if_neg hlast⟩

/-- Everything the end of a block with pixels `px` does. -/
theorem blockDone_afterBlock (px : Nat → Pixel) (s : State) : BlockDone px s (afterBlock ((List.range 16).map px) s) :=
  ⟨blockWritten_afterBlock px s, blockAdvanced_afterBlock _ s, (rasterFrame_afterBlock _ s).frame⟩

/-- A block completes wherever the raster fits OUT. -/
theorem finishBlock_completes {s : State} (h : rasterBytes s ≤ s.cfg.outCapacity) (px : Nat → Pixel) :
    ∃ t, finishBlock ((List.range 16).map px) s = .next t ∧ BlockDone px s t :=
  ⟨_, finishBlock_of_fits h _, blockDone_afterBlock px s⟩

/-- A block that answers a next state is complete there. -/
theorem blockDone_of_finishBlock {px : Nat → Pixel} {s t : State}
    (h : finishBlock ((List.range 16).map px) s = .next t) : BlockDone px s t := by
  obtain ⟨-, rfl⟩ := finishBlock_next h
  exact blockDone_afterBlock px s

/-! ## The pixels of the DXT blocks -/

/-- A field taken by a shift is a bit range of the word. -/
theorem shiftRight_mod_eq_field {k : Nat} (w : BitVec k) (lo n : Nat) :
    (w.toNat >>> lo) % 2 ^ n = Rule.field w lo n := by
  rw [Nat.shiftRight_eq_div_pow, Rule.field]

theorem colourIndex_eq_field (sel : BitVec 32) (i : Nat) : colourIndex sel i = Rule.field sel (2 * i) 2 :=
  shiftRight_mod_eq_field sel (2 * i) 2

theorem alphaIndex_eq_field (asel : BitVec 48) (i : Nat) : alphaIndex asel i = Rule.field asel (3 * i) 3 :=
  shiftRight_mod_eq_field asel (3 * i) 3

theorem alphaNibble_eq_field (alpha : BitVec 64) (i : Nat) : alphaNibble alpha i = Rule.field alpha (4 * i) 4 :=
  shiftRight_mod_eq_field alpha (4 * i) 4

/-- A 2-bit index always names an entry of the palette, so the lookup is the rule's colour (41_dxt R157). -/
theorem palettePixel_eq_colour {d : DxtRegs} {c0 c1 : BitVec 16} {punch : Bool} (h : d.pal = palette c0 c1 punch)
    (i : Nat) : palettePixel d i = Rule.colour c0 c1 punch (Rule.field d.sel (2 * i) 2) := by
  rw [palettePixel, h, colourIndex_eq_field, List.getD_eq_getElem?_getD, palette_getElem? (field_lt d.sel (2 * i) 2),
    Option.getD_some]

/-- A 3-bit index always names an entry of the alpha palette (41_dxt R161). -/
theorem alphaPalette_getD (a0 a1 : Byte) (asel : BitVec 48) (i : Nat) :
    (alphaPalette a0 a1).getD (alphaIndex asel i) 0 =
      BitVec.ofNat 8 (Rule.alphaEntry a0 a1 (Rule.field asel (3 * i) 3)) := by
  rw [alphaIndex_eq_field, List.getD_eq_getElem?_getD, alphaPalette_getElem? (field_lt asel (3 * i) 3), Option.getD_some]

theorem dxt1Pixels_eq (c0 c1 : BitVec 16) (sel : BitVec 32) (d : DxtRegs) :
    dxt1Pixels (loadDxt1 c0 c1 sel d) = (List.range 16).map (Rule.dxt1Pixel c0 c1 sel) :=
  List.map_congr_left fun i _ => palettePixel_eq_colour rfl i

theorem dxt3Pixels_eq (alpha : BitVec 64) (c0 c1 : BitVec 16) (sel : BitVec 32) (d : DxtRegs) :
    dxt3Pixels alpha (loadColour c0 c1 sel d) = (List.range 16).map (Rule.dxt3Pixel alpha c0 c1 sel) := by
  refine List.map_congr_left fun i _ => ?_
  rw [palettePixel_eq_colour (d := loadColour c0 c1 sel d) rfl, alphaNibble_eq_field, Nat.mul_comm _ 17]
  rfl

theorem dxt5Pixels_eq (a0 a1 : Byte) (asel : BitVec 48) (c0 c1 : BitVec 16) (sel : BitVec 32) (d : DxtRegs) :
    dxt5Pixels (loadDxt5 a0 a1 asel c0 c1 sel d) = (List.range 16).map (Rule.dxt5Pixel a0 a1 asel c0 c1 sel) := by
  refine List.map_congr_left fun i _ => ?_
  rw [palettePixel_eq_colour (d := loadDxt5 a0 a1 asel c0 c1 sel d) rfl]
  exact congrArg (Pixel.mk _ _ _) (alphaPalette_getD a0 a1 asel i)

/-! ## The DXT instructions -/

theorem exec_dxt1 (c0 c1 : BitVec 16) (sel : BitVec 32) (s : State) :
    exec (.dxt1 c0 c1 sel) s = finishBlock ((List.range 16).map (Rule.dxt1Pixel c0 c1 sel)) s := by
  rw [← dxt1Pixels_eq c0 c1 sel s.dxt]
  exact finishBlock_dxt _ s _

theorem exec_dxt3 (alpha : BitVec 64) (c0 c1 : BitVec 16) (sel : BitVec 32) (s : State) :
    exec (.dxt3 alpha c0 c1 sel) s = finishBlock ((List.range 16).map (Rule.dxt3Pixel alpha c0 c1 sel)) s := by
  rw [← dxt3Pixels_eq alpha c0 c1 sel s.dxt]
  exact finishBlock_dxt _ s _

theorem exec_dxt5 (a0 a1 : BitVec 8) (asel : BitVec 48) (c0 c1 : BitVec 16) (sel : BitVec 32) (s : State) :
    exec (.dxt5 a0 a1 asel c0 c1 sel) s =
      finishBlock ((List.range 16).map (Rule.dxt5Pixel a0 a1 asel c0 c1 sel)) s := by
  rw [← dxt5Pixels_eq a0 a1 asel c0 c1 sel s.dxt]
  exact finishBlock_dxt _ s _

/-- Settles O15: the instruction is the end of a block with the rule's pixels. -/
theorem dxt1BlockDecodes : Obligations.Dxt1BlockDecodes := by
  intro c0 c1 sel s h
  rw [exec_dxt1]
  exact finishBlock_completes h _

/-- Settles O16: the instruction is the end of a block with the rule's pixels. -/
theorem dxt3BlockDecodes : Obligations.Dxt3BlockDecodes := by
  intro alpha c0 c1 sel s h
  rw [exec_dxt3]
  exact finishBlock_completes h _

/-- Settles O17: the instruction is the end of a block with the rule's pixels. -/
theorem dxt5BlockDecodes : Obligations.Dxt5BlockDecodes := by
  intro a0 a1 asel c0 c1 sel s h
  rw [exec_dxt5]
  exact finishBlock_completes h _

/-- With `c0 > c1` every pixel of a DXT1 block is opaque, whatever its index (41_dxt R157). -/
theorem dxt1Pixel_a_of_gt {c0 c1 : BitVec 16} (h : c1.toNat < c0.toNat) (sel : BitVec 32) (i : Nat) :
    (Rule.dxt1Pixel c0 c1 sel i).a = 255 :=
  colour_a_of_opaque fun _ => (opaquePalette_eq_true_iff c0 c1 true).2 (.inl h)

/-- Settles O18: byte 3 of a pixel is its alpha, and transparent black is four zero bytes. -/
theorem dxt1AlphaProperty : Obligations.Dxt1AlphaProperty := by
  intro c0 c1 sel s t ht i hi hx hy
  rw [exec_dxt1] at ht
  obtain ⟨⟨hwritten, -⟩, -⟩ := blockDone_of_finishBlock ht
  refine ⟨fun hgt => ?_, fun hle h3 c hc => ?_⟩
  · rw [hwritten i hi hx hy 3 (by decide), ← dxt1Pixel_a_of_gt hgt sel i]
    rfl
  · have hblack : Rule.dxt1Pixel c0 c1 sel i = ⟨0, 0, 0, 0⟩ := by
      rw [Rule.dxt1Pixel, h3, colour_three_of_punch hle]
    rw [hwritten i hi hx hy c hc, hblack]
    exact congrArg some ((by decide : ∀ c < 4, (pixelBytes ⟨0, 0, 0, 0⟩).getD c 0 = 0) c hc)

end Sys2Proof.Machine
end

section
/-! The arithmetic of the BC7 datapath (42_bc7 R189, R194): unquantisation sets the value on top of its own top bits,
and interpolation is a rounded weighted mean. -/

namespace Sys2Proof.Machine

/-! ## Unquantisation -/

/-- The low bits unquantisation adds: fewer than the places the shift frees. -/
theorem replicatedBits_lt {p v : Nat} (hv : v < 2 ^ p) : v * 2 ^ (8 - p) / 2 ^ p < 2 ^ (8 - p) :=
  Nat.div_lt_of_lt_mul (Nat.mul_lt_mul_of_pos_right hv (Nat.two_pow_pos _))

/-- The two parts of an unquantised value have no bit in common, so it is their sum. -/
theorem unquantise_eq_add {p v : Nat} (hv : v < 2 ^ p) :
    unquantise p v = v * 2 ^ (8 - p) + v * 2 ^ (8 - p) / 2 ^ p := by
  have hlow : (v <<< (8 - p)) >>> p < 2 ^ (8 - p) := by
    rw [Nat.shiftLeft_eq, Nat.shiftRight_eq_div_pow]
    exact replicatedBits_lt hv
  rw [unquantise, ← Nat.shiftLeft_add_eq_or_of_lt hlow, Nat.shiftRight_eq_div_pow, Nat.shiftLeft_eq]

/-- The top `p` bits of an unquantised value are the value. -/
theorem unquantise_div {p v : Nat} (hv : v < 2 ^ p) : unquantise p v / 2 ^ (8 - p) = v := by
  rw [unquantise_eq_add hv, Nat.mul_comm, Nat.mul_add_div (Nat.two_pow_pos _), ← Nat.mul_comm v,
    Nat.div_eq_of_lt (replicatedBits_lt hv), Nat.add_zero]

/-- An unquantised value is a byte. -/
theorem unquantise_lt {p v : Nat} (hp : p ≤ 8) (hv : v < 2 ^ p) : unquantise p v < 256 := by
  have hbyte : 2 ^ p * 2 ^ (8 - p) = 256 := by rw [← Nat.pow_add, Nat.add_sub_cancel' hp]
  rwa [← hbyte, ← Nat.div_lt_iff_lt_mul (Nat.two_pow_pos _), unquantise_div hv]

/-- Settles O23: the value stands on top; eight bits leave no room for more; the largest value is evaluated for each
precision. -/
theorem unquantisationReplicatesTopBits : Obligations.UnquantisationReplicatesTopBits := by
  intro p hp hp5 v hv
  refine ⟨unquantise_lt (by omega) hv, unquantise_div hv, ?_, fun hmax => ?_⟩
  · rintro rfl
    simpa using unquantise_div hv
  · obtain rfl : v = 2 ^ p - 1 := by omega
    interval_cases p <;> rfl

/-! ## Interpolation -/

/-- Interpolation is the rounded weighted mean (42_bc7 R194). -/
theorem interpolate_eq_lerp (A B w : Nat) : interpolate A B w = Rule.lerp A B w := by
  rw [interpolate, Rule.lerp, Nat.shiftRight_eq_div_pow]

/-- A rounded weighted mean lies between the two values. -/
theorem lerp_between (A B : Nat) {w : Nat} (hw : w ≤ 64) : min A B ≤ Rule.lerp A B w ∧ Rule.lerp A B w ≤ max A B := by
  have hweights (x : Nat) : x * 64 = x * (64 - w) + x * w := by rw [← Nat.mul_add, Nat.sub_add_cancel hw]
  have hlow : min A B * 64 ≤ A * (64 - w) + B * w :=
    (hweights _).trans_le (Nat.add_le_add (Nat.mul_le_mul_right _ (min_le_left A B))
      (Nat.mul_le_mul_right _ (min_le_right A B)))
  have hhigh : A * (64 - w) + B * w ≤ max A B * 64 :=
    (Nat.add_le_add (Nat.mul_le_mul_right _ (le_max_left A B))
      (Nat.mul_le_mul_right _ (le_max_right A B))).trans_eq (hweights _).symm
  rw [Rule.lerp]
  omega

theorem lerp_self (A : Nat) {w : Nat} (hw : w ≤ 64) : Rule.lerp A A w = A := by
  have hbetween := lerp_between A A hw
  omega

/-- Two bytes interpolate to a byte. -/
theorem lerp_lt {A B w : Nat} (hA : A < 256) (hB : B < 256) (hw : w ≤ 64) : Rule.lerp A B w < 256 :=
  (lerp_between A B hw).2.trans_lt (max_lt hA hB)

/-- Settles O24: the bounds of a rounded mean, and the mean with all the weight on one side. -/
theorem bc7InterpolationLaws : Obligations.Bc7InterpolationLaws := by
  intro A B w _ _ hw
  simp only [interpolate_eq_lerp]
  obtain ⟨hlow, hhigh⟩ := lerp_between A B hw
  refine ⟨hlow, hhigh, ?_, ?_, lerp_self A hw⟩ <;> rw [Rule.lerp] <;> omega

end Sys2Proof.Machine
end

section
/-! The pixels of a BC7 block (42_bc7 R189 to R197): from the fields of its word to the 16 pixels of the rules, and the
eight instructions as the end of a block with these pixels. -/

namespace Sys2Proof.Machine

/-! ## The tables -/

/-- What holds of every entry of a table, and of the default, holds of a lookup. -/
theorem getD_of_forall_mem {α : Type} {P : α → Prop} {l : List α} {d : α} (hd : P d) (h : ∀ x ∈ l, P x) (i : Nat) :
    P (l.getD i d) := by
  rw [List.getD_eq_getElem?_getD]
  cases hx : l[i]? with
  | none => exact hd
  | some x => exact h x (List.mem_of_getElem? hx)

/-- Every subset a partition names is one of the mode's (43_bc7_tables R231 to R233). -/
theorem partitionOf_lt {m i : Nat} (hm : m < 8) (hi : i < 16) (shape : Nat) :
    partitionOf (modeRow m).ns shape i < (modeRow m).ns := by
  have htwo : partitionOf 2 shape i < 2 := Nat.mod_lt _ (by decide)
  have hthree : partitionOf 3 shape i < 3 :=
    getD_of_forall_mem (P := fun t => ∀ i < 16, (t >>> (2 * i)) % 4 < 3) (by decide) (by decide) shape i hi
  interval_cases m
  exacts [hthree, htwo, hthree, htwo, Nat.one_pos, Nat.one_pos, Nat.one_pos, htwo]

/-- Every anchor is one of the 16 pixels (43_bc7_tables R234). -/
theorem lt_of_mem_anchors {ns shape i : Nat} (h : i ∈ anchors ns shape) : i < 16 := by
  have hsecond : anchors2Table.getD shape 0 < 16 := getD_of_forall_mem (P := (· < 16)) (by decide) (by decide) shape
  have hthree2 : anchors3SecondTable.getD shape 0 < 16 :=
    getD_of_forall_mem (P := (· < 16)) (by decide) (by decide) shape
  have hthree3 : anchors3ThirdTable.getD shape 0 < 16 :=
    getD_of_forall_mem (P := (· < 16)) (by decide) (by decide) shape
  unfold anchors at h
  split at h <;> simp only [List.mem_cons, List.not_mem_nil, or_false] at h <;> omega

/-- No weight exceeds 64 (43_bc7_tables R230). -/
theorem weight_le (bits index : Nat) : weight bits index ≤ 64 := by
  refine getD_of_forall_mem (P := (· ≤ 64)) (by decide) ?_ index
  unfold weightTable
  split <;> decide

/-- No augmented precision exceeds a byte, and p-bits add at most one bit (30_encoding R97). -/
theorem precP_bounds : ∀ m < 8, ∀ ch < 4,
    (modeRow m).precP.getD ch 0 ≤ 8 ∧
    ((modeRow m).precP.getD ch 0 = (modeRow m).prec.getD ch 0 ∨
      (modeRow m).precP.getD ch 0 = (modeRow m).prec.getD ch 0 + 1) := by
  decide

/-! ## Endpoints and weights -/

/-- The endpoint channels of the rules, by the machine's unquantisation. -/
theorem endpoint_eq_unquantise (m : Nat) (w : BitVec 128) (e ch : Nat) :
    Rule.endpoint m w e ch =
      if (modeRow m).precP.getD ch 0 = 0 then 255
      else unquantise ((modeRow m).precP.getD ch 0) (Rule.augmented m w e ch) := by
  rw [Rule.endpoint, unquantise, Nat.shiftRight_eq_div_pow, Nat.shiftLeft_eq]

/-- The endpoint channels of the datapath are those of the rules (42_bc7 R189, R190). -/
theorem endpoint8_loadedBc7 {m e ch : Nat} (hm : m < 8) (blk : List Byte) (he : e < 2 * (modeRow m).ns)
    (hch : ch < 4) :
    endpoint8 (modeRow m) (loadedBc7 m blk).ep e ch = Rule.endpoint m (blockBits 128 blk) e ch := by
  rw [endpoint8, loadedBc7_ep hm blk he hch, endpoint_eq_unquantise]

/-- The primary indices, with the width of the rule (42_bc7 R191). -/
theorem loadedBc7_i1_eq_index1 {m i : Nat} (blk : List Byte) (hi : i < 16) :
    (loadedBc7 m blk).i1.getD i 0 = Rule.index1 m (blockBits 128 blk) i := by
  have hwidth (shape j : Nat) :
      (if j ∈ anchors (modeRow m).ns shape then (modeRow m).ib - 1 else (modeRow m).ib) =
        Rule.indexWidth m shape j := by
    rw [Rule.indexWidth]
    split <;> rfl
  rw [loadedBc7_i1 blk hi, Rule.index1, Rule.indexStart]
  simp only [hwidth]
  rfl

/-- The plane that serves colour (42_bc7 R193). -/
theorem colourWeight_loadedBc7 {m i ch : Nat} (hm : m < 8) (blk : List Byte) (hi : i < 16) (hch : ch < 3) :
    colourWeight (modeRow m) (loadedBc7 m blk) i = Rule.channelWeight m (blockBits 128 blk) i ch := by
  have hsel : (loadedBc7 m blk).isel = Rule.selector m (blockBits 128 blk) := rfl
  have hcolour : ch ≠ 3 := by omega
  rw [colourWeight, Rule.channelWeight, Rule.weight1, Rule.weight2, loadedBc7_i1_eq_index1 blk hi, hsel]
  by_cases h2 : (modeRow m).ib2 = 0
  · simp only [h2, if_true]
  · simp only [h2, if_false, hcolour, false_iff, ite_not, loadedBc7_i2 hm blk h2 hi]

/-- The plane that serves alpha (42_bc7 R193). -/
theorem alphaWeight_loadedBc7 {m i : Nat} (hm : m < 8) (blk : List Byte) (hi : i < 16) :
    alphaWeight (modeRow m) (loadedBc7 m blk) i = Rule.channelWeight m (blockBits 128 blk) i 3 := by
  have hsel : (loadedBc7 m blk).isel = Rule.selector m (blockBits 128 blk) := rfl
  rw [alphaWeight, Rule.channelWeight, Rule.weight1, Rule.weight2, loadedBc7_i1_eq_index1 blk hi, hsel]
  by_cases h2 : (modeRow m).ib2 = 0
  · simp only [h2, if_true]
  · simp only [h2, if_false, true_iff, loadedBc7_i2 hm blk h2 hi]

/-! ## Channels -/

/-- The value of a channel after p-bit application fits its augmented precision (42_bc7 R188). -/
theorem augmented_lt {m e ch : Nat} (hm : m < 8) (hch : ch < 4) (w : BitVec 128) :
    Rule.augmented m w e ch < 2 ^ (modeRow m).precP.getD ch 0 := by
  have hraw : Rule.raw m w e ch < 2 ^ (modeRow m).prec.getD ch 0 := field_lt w _ _
  have hpbit := pBit_lt m w (e * (modeRow m).np / (2 * (modeRow m).ns))
  rw [Rule.augmented]
  obtain ⟨-, hsame | hmore⟩ := precP_bounds m hm ch hch
  · rwa [hsame, if_neg (lt_irrefl _)]
  · rw [hmore, if_pos (Nat.lt_succ_self _), Nat.pow_succ]
    omega

theorem endpoint_lt {m ch : Nat} (hm : m < 8) (hch : ch < 4) (w : BitVec 128) (e : Nat) :
    Rule.endpoint m w e ch < 256 := by
  rw [endpoint_eq_unquantise]
  split
  · decide
  · obtain ⟨hbyte, -⟩ := precP_bounds m hm ch hch
    exact unquantise_lt hbyte (augmented_lt hm hch w)

theorem channelWeight_le (m : Nat) (w : BitVec 128) (i ch : Nat) : Rule.channelWeight m w i ch ≤ 64 := by
  unfold Rule.channelWeight
  split_ifs <;> exact weight_le _ _

/-- Every channel is a byte. -/
theorem channel_lt {m ch : Nat} (hm : m < 8) (hch : ch < 4) (w : BitVec 128) (i : Nat) :
    Rule.channel m w i ch < 256 :=
  lerp_lt (endpoint_lt hm hch w _) (endpoint_lt hm hch w _) (channelWeight_le m w i ch)

/-- The rotation field has at most two bits (30_encoding R97). -/
theorem rotation_lt {m : Nat} (hm : m < 8) (w : BitVec 128) : Rule.rotation m w < 4 := by
  have hbits : ∀ m < 8, (modeRow m).rb ≤ 2 := by decide
  exact (field_lt w _ _).trans_le (Nat.pow_le_pow_right (by decide) (hbits m hm))

/-- Every channel is a byte after rotation too: rotation only swaps channels (42_bc7 R195). -/
theorem rotated_lt {m ch : Nat} (hm : m < 8) (hch : ch < 4) (w : BitVec 128) (i : Nat) :
    Rule.rotated m w i ch < 256 := by
  have hq := rotation_lt hm w
  unfold Rule.rotated
  dsimp only
  split_ifs <;> exact channel_lt hm (by omega) w i

/-! ## Pixels -/

/-- The pixel with the given channels, in the order R, G, B, A. -/
def pixelOf (c : Nat → Nat) : Pixel :=
  { r := BitVec.ofNat 8 (c 0), g := BitVec.ofNat 8 (c 1), b := BitVec.ofNat 8 (c 2), a := BitVec.ofNat 8 (c 3) }

/-- Interpolation between the endpoints of a pixel's subset gives the channel of the rule (42_bc7 R194). -/
theorem interpolate_loadedBc7 {m i ch wt : Nat} (hm : m < 8) (blk : List Byte) (hi : i < 16) (hch : ch < 4)
    (hweight : wt = Rule.channelWeight m (blockBits 128 blk) i ch) :
    interpolate
        (endpoint8 (modeRow m) (loadedBc7 m blk).ep (2 * partitionOf (modeRow m).ns (loadedBc7 m blk).shape i) ch)
        (endpoint8 (modeRow m) (loadedBc7 m blk).ep (2 * partitionOf (modeRow m).ns (loadedBc7 m blk).shape i + 1) ch)
        wt =
      Rule.channel m (blockBits 128 blk) i ch := by
  have hsubset := partitionOf_lt hm hi (loadedBc7 m blk).shape
  rw [endpoint8_loadedBc7 hm blk (by omega) hch, endpoint8_loadedBc7 hm blk (by omega) hch, hweight,
    interpolate_eq_lerp]
  rfl

/-- The pixel before rotation: red, green and blue take the weight of colour, alpha its own (42_bc7 R193, R194). -/
theorem interpolatedPixel_loadedBc7 {m i : Nat} (hm : m < 8) (blk : List Byte) (hi : i < 16) :
    interpolatedPixel (loadedBc7 m blk) i = pixelOf (Rule.channel m (blockBits 128 blk) i) := by
  have hmode : (loadedBc7 m blk).mode = m := rfl
  have hcolour {ch : Nat} (hch : ch < 3) :=
    interpolate_loadedBc7 hm blk hi (by omega) (colourWeight_loadedBc7 hm blk hi hch)
  have halpha := interpolate_loadedBc7 hm blk hi (by decide) (alphaWeight_loadedBc7 hm blk hi)
  simp only [interpolatedPixel, pixelOf, hmode, hcolour, halpha, Nat.reduceLT]

/-- Rotation of a pixel swaps the channels the rule swaps (42_bc7 R195). -/
theorem rotate_pixelOf {m : Nat} (hm : m < 8) (w : BitVec 128) (i : Nat) :
    rotate (Rule.rotation m w) (pixelOf (Rule.channel m w i)) = pixelOf (Rule.rotated m w i) := by
  have hq := rotation_lt hm w
  unfold pixelOf Rule.rotated
  dsimp only
  generalize Rule.rotation m w = q at hq
  interval_cases q <;> rfl

/-- The sRGB table of a byte given as a number (43_bc7_tables R235). -/
theorem srgbOf_ofNat {v : Nat} (hv : v < 256) : srgbOf (BitVec.ofNat 8 v) = BitVec.ofNat 8 (srgbTable.getD v 0) := by
  rw [srgbOf, BitVec.toNat_ofNat, Nat.mod_eq_of_lt hv]

/-- The sRGB transfer of a pixel (42_bc7 R196). -/
theorem srgbPixel_pixelOf {m : Nat} (hm : m < 8) (srgb : Bool) (w : BitVec 128) (i : Nat) :
    srgbPixel srgb (pixelOf (Rule.rotated m w i)) = Rule.bc7Pixel srgb m w i := by
  cases srgb with
  | false => rfl
  | true =>
    have hbyte {ch : Nat} (hch : ch < 4) := srgbOf_ofNat (rotated_lt hm hch w i)
    simp only [srgbPixel, pixelOf, if_true, hbyte, Nat.reduceLT]
    rfl

/-- The 16 pixels of the datapath are those of the rules (42_bc7 R184 to R197). -/
theorem bc7Pixels_loadedBc7 {m : Nat} (hm : m < 8) (srgb : Bool) (blk : List Byte) :
    bc7Pixels srgb (loadedBc7 m blk) = (List.range 16).map (Rule.bc7Pixel srgb m (blockBits 128 blk)) := by
  refine List.map_congr_left fun i hi => ?_
  rw [interpolatedPixel_loadedBc7 hm blk (List.mem_range.1 hi), ← srgbPixel_pixelOf hm, ← rotate_pixelOf hm]
  rfl

/-! ## The instructions -/

theorem modeOf_lt {i : Instr} {m : Nat} (h : Rule.modeOf i = some m) : m < 8 :=
  (bc7ModeOf_eq_some.1 (bc7ModeOf_bc7Bits h)).1

/-- The eight instructions are one datapath under eight modes (42_bc7 R200 to R207). -/
theorem exec_eq_bc7Block {i : Instr} {m : Nat} (h : Rule.modeOf i = some m) (s : State) :
    exec i s = bc7Block m (bc7Bytes i) s := by
  cases i with
  | decode | dxt1 | dxt3 | dxt5 | bc7Reserved => cases h
  | _ => cases h; rfl

/-- A BC7 block of modes 0 to 7 is the end of a block with the pixels of the rules. -/
theorem exec_bc7 {i : Instr} {m : Nat} (h : Rule.modeOf i = some m) (s : State) :
    exec i s = finishBlock ((List.range 16).map (Rule.bc7Pixel s.loc.srgb m (bc7Bits i))) s := by
  have hm := modeOf_lt h
  have hword : blockBits 128 (bc7Bytes i) = bc7Bits i := blockBits_leBytes (by decide) _
  rw [exec_eq_bc7Block h, bc7Block, loadBc7_eq_loadedBc7 hm]
  dsimp only
  rw [bc7Pixels_loadedBc7 hm, hword, finishBlock_bc7]

/-- Settles O19: the instruction is the end of a block with the rule's pixels. -/
theorem bc7BlocksDecode : Obligations.Bc7BlocksDecode := by
  intro i m s hmode hfits
  rw [exec_bc7 hmode]
  exact finishBlock_completes hfits _

/-- Settles O8: the field read is the random access, whose cursor is at bit 128; and what completes a block leaves the
register block alone. -/
theorem bc7BitBudgetIsExact : Obligations.Bc7BitBudgetIsExact := by
  refine ⟨fun m bytes hm => ⟨_, loadBc7_eq_loadedBc7 hm bytes, rfl⟩, fun i m s t hmode ht => ?_⟩
  rw [exec_bc7 hmode] at ht
  obtain ⟨-, -, hframe⟩ := blockDone_of_finishBlock ht
  unfold BlockFrame at hframe
  rw [hframe]
  exact ⟨rfl, rfl⟩

/-- Settles O9: an anchor is one of the 16 pixels, and its index field has one bit fewer. -/
theorem bc7AnchorIndexTopBitIsZero : Obligations.Bc7AnchorIndexTopBitIsZero := by
  intro m bytes d hm hload i hi
  cases (loadBc7_eq_loadedBc7 hm bytes).symm.trans hload
  rw [loadedBc7_i1 bytes (lt_of_mem_anchors hi), if_pos hi]
  exact field_lt _ _ _

/-! ## The reserved mode -/

/-- A structural failure of a block: its ERR_INFO, the block's index, and nothing else (60_exceptions R290, 44_raster
R256). -/
theorem failedWith_raiseBlockFail {f : Failure} (h : failureResult f = .errStructural) (k : Nat) (s : State) :
    FailedWith .errStructural (failureInfo f) (BitVec.ofNat 32 k) s (raiseBlockFail f k s) := by
  unfold FailedWith raiseBlockFail raiseFail
  rw [h, if_pos rfl]
  rfl

/-- Settles O21: the instruction is that failure at the current block. -/
theorem reservedModeEndsTheDecode : Obligations.ReservedModeEndsTheDecode := fun _ s =>
  ⟨_, rfl, failedWith_raiseBlockFail (f := .bc7ReservedMode) rfl (blockIndex s) s⟩

end Sys2Proof.Machine
end

section
/-! The block whose only set bit is its mode bit (42_bc7 R209): every field is 0, so every channel the mode has is 0,
and every other 255. -/

namespace Sys2Proof.Machine

/-- The word whose only set bit is bit `k`. -/
def onlyBit (k : Nat) : BitVec 128 := BitVec.ofNat 128 (2 ^ k)

theorem onlyBit_toNat {k : Nat} (hk : k < 128) : (onlyBit k).toNat = 2 ^ k :=
  Nat.mod_eq_of_lt (Nat.pow_lt_pow_right (by decide) hk)

/-- Above its set bit the word has no field but 0. -/
theorem field_onlyBit {k lo : Nat} (h : k < lo) (n : Nat) : Rule.field (onlyBit k) lo n = 0 := by
  have hword : (onlyBit k).toNat < 2 ^ lo :=
    (Nat.mod_le _ _).trans_lt (Nat.pow_lt_pow_right (by decide) h)
  rw [Rule.field, Nat.div_eq_of_lt hword, Nat.zero_mod]

/-- Every field of a mode lies above its mode bit (30_encoding R99 to R106). -/
theorem layout_above_mode : ∀ m < 8,
    ((modeRow m).rb = 0 ∨ m < (Rule.layout m).rot) ∧
    (∀ ch < 4, (modeRow m).prec.getD ch 0 = 0 ∨ m < (Rule.layout m).chan.getD ch 0) ∧
    ∀ ch < 4, (modeRow m).prec.getD ch 0 < (modeRow m).precP.getD ch 0 → m < (Rule.layout m).p := by
  decide

theorem rotation_onlyBit {k : Nat} (hk : k < 8) : Rule.rotation k (onlyBit k) = 0 := by
  obtain ⟨hwidth | hstart, -⟩ := layout_above_mode k hk
  · rw [Rule.rotation, hwidth, field_zero]
  · exact field_onlyBit hstart _

theorem raw_onlyBit {k ch : Nat} (hk : k < 8) (hch : ch < 4) (e : Nat) : Rule.raw k (onlyBit k) e ch = 0 := by
  obtain ⟨-, hchan, -⟩ := layout_above_mode k hk
  obtain hwidth | hstart := hchan ch hch
  · rw [Rule.raw, hwidth, field_zero]
  · exact field_onlyBit (Nat.lt_add_right _ hstart) _

theorem augmented_onlyBit {k ch : Nat} (hk : k < 8) (hch : ch < 4) (e : Nat) :
    Rule.augmented k (onlyBit k) e ch = 0 := by
  obtain ⟨-, -, hp⟩ := layout_above_mode k hk
  rw [Rule.augmented, raw_onlyBit hk hch]
  split
  · next hmore => rw [Rule.pBit, field_onlyBit (Nat.lt_add_right _ (hp ch hch hmore))]
  · rfl

theorem endpoint_onlyBit {k ch : Nat} (hk : k < 8) (hch : ch < 4) (e : Nat) :
    Rule.endpoint k (onlyBit k) e ch = if (modeRow k).precP.getD ch 0 = 0 then 255 else 0 := by
  rw [Rule.endpoint, augmented_onlyBit hk hch]
  simp

/-- Equal endpoints give every pixel the same channels, whatever its index (42_bc7 R194). -/
theorem channel_onlyBit {k ch : Nat} (hk : k < 8) (hch : ch < 4) (i : Nat) :
    Rule.channel k (onlyBit k) i ch = if (modeRow k).precP.getD ch 0 = 0 then 255 else 0 := by
  rw [Rule.channel, endpoint_onlyBit hk hch, endpoint_onlyBit hk hch]
  exact lerp_self _ (channelWeight_le _ _ _ _)

/-- The modes 0 to 3 have no alpha, and every mode has the three colours (30_encoding R97). -/
theorem precP_eq_zero_iff : ∀ k < 8, ∀ ch < 4, (modeRow k).precP.getD ch 0 = 0 ↔ ch = 3 ∧ k ≤ 3 := by
  decide

theorem finalChannel_onlyBit {k ch : Nat} (hk : k < 8) (hch : ch < 4) (srgb : Bool) (i : Nat) :
    Rule.finalChannel srgb k (onlyBit k) i ch = if ch = 3 ∧ k ≤ 3 then 255 else 0 := by
  have hrot : Rule.rotated k (onlyBit k) i ch = if ch = 3 ∧ k ≤ 3 then 255 else 0 := by
    rw [Rule.rotated, rotation_onlyBit hk, if_pos rfl, channel_onlyBit hk hch]
    simp only [precP_eq_zero_iff k hk ch hch]
  rw [Rule.finalChannel, hrot]
  split
  · next hcolour => rw [if_neg (by omega)]; rfl
  · rfl

/-- The one pixel of such a block, with or without sRGB (42_bc7 R209). -/
theorem bc7Pixel_onlyBit {k : Nat} (hk : k < 8) (srgb : Bool) :
    Rule.bc7Pixel srgb k (onlyBit k) = fun _ => if k ≤ 3 then ⟨0, 0, 0, 255⟩ else ⟨0, 0, 0, 0⟩ := by
  funext i
  by_cases h : k ≤ 3 <;> simp [Rule.bc7Pixel, finalChannel_onlyBit hk, h]

/-! ## Its decoding -/

theorem bc7ModeOf_onlyBit : ∀ k < 8, bc7ModeOf (onlyBit k) = some k := by
  decide

theorem modeOf_decodeBc7 {w : BitVec 128} {m : Nat} (h : bc7ModeOf w = some m) :
    Rule.modeOf (decodeBc7 w) = some m := by
  obtain ⟨hm, -⟩ := bc7ModeOf_eq_some.1 h
  rw [decodeBc7, h]
  interval_cases m <;> rfl

/-- Settles O20: the block's instruction has the block's word, which O19 says completes with this pixel. -/
theorem onlyBitKSetDecodesUnderModeK : Obligations.OnlyBitKSetDecodesUnderModeK := by
  intro k s hk hfits
  have hmode := modeOf_decodeBc7 (bc7ModeOf_onlyBit k hk)
  have hword : blockBits 128 (leBytes 16 (2 ^ k)) = onlyBit k := by
    rw [← onlyBit_toNat (by omega)]
    exact blockBits_leBytes (by decide) _
  obtain ⟨t, hexec, hdone⟩ := bc7BlocksDecode (decodeBc7 (onlyBit k)) k s hmode hfits
  rw [bc7Bits_decodeBc7, bc7Pixel_onlyBit hk] at hdone
  refine ⟨_, t, decode_bc7 (leBytes_length 16 _), ?_⟩
  rw [hword]
  exact ⟨hmode, hexec, hdone⟩

end Sys2Proof.Machine
end

section
/-! The constant tables of 43_bc7_tables: weights, partitions and anchors agree with each other, and the sRGB table is
its formula over the reals, which integer comparisons decide: the exponent 2.4 is 12/5, so a bound on the power is a
bound between fifth and twelfth powers of integers. -/

namespace Sys2Proof.Machine

/-! ## Weights, partitions and anchors -/

/-- A weight table has an entry for each index, from 0 to 64 and rising (43_bc7_tables R230). -/
theorem weightTable_rises : ∀ bits < 5, 2 ≤ bits →
    (weightTable bits).length = 2 ^ bits ∧ weight bits 0 = 0 ∧ weight bits (2 ^ bits - 1) = 64 ∧
    (weightTable bits).Pairwise (· < ·) := by
  decide

/-- The anchors of a two-subset shape are in the subsets 0 and 1 (43_bc7_tables R232, R234). -/
theorem map_partitionOf_anchors_two : ∀ shape < 64, (anchors 2 shape).map (partitionOf 2 shape) = [0, 1] := by
  decide

/-- The anchors of a three-subset shape are in the subsets 0, 1 and 2 (43_bc7_tables R233, R234). -/
theorem map_partitionOf_anchors_three : ∀ shape < 64, (anchors 3 shape).map (partitionOf 3 shape) = [0, 1, 2] := by
  decide

/-- Settles O25: mode 1 has two subsets and mode 0 three, so the range of their partitions is that of the modes'. -/
theorem bc7TablesAreConsistent : Obligations.Bc7TablesAreConsistent :=
  ⟨weightTable_rises,
   fun shape hshape => ⟨fun _ hi => partitionOf_lt (m := 1) (by decide) hi shape,
     map_partitionOf_anchors_two shape hshape, fun _ ha => lt_of_mem_anchors ha⟩,
   fun shape hshape => ⟨fun _ hi => partitionOf_lt (m := 0) (by decide) hi shape,
     map_partitionOf_anchors_three shape hshape, fun _ ha => lt_of_mem_anchors ha⟩⟩

/-! ## The sRGB table -/

/-- A table of 256 entries, checked in 16 rows of 16 as 43_bc7_tables R235 prints it. -/
theorem forall_lt_256_of_rows {P : ℕ → Prop} (h : ∀ row < 16, ∀ column < 16, P (16 * row + column)) :
    ∀ c < 256, P c := by
  intro c hc
  have hentry := h (c / 16) (by omega) (c % 16) (Nat.mod_lt _ (by decide))
  rwa [Nat.div_add_mod] at hentry

/-- The linear segment of the formula is that of the entries 0 to 10 (43_bc7_tables R235). -/
theorem linear_segment_iff (c : ℕ) : (c : ℝ) / 255 ≤ 0.04045 ↔ c ≤ 10 := by
  rw [div_le_iff₀ (by norm_num)]
  constructor
  · intro h
    by_contra hc
    have h11 : (11 : ℝ) ≤ c := by exact_mod_cast not_le.1 hc
    linarith
  · intro h
    have h10 : (c : ℝ) ≤ 10 := by exact_mod_cast h
    linarith

/-- The entries of the linear segment, at most half a unit from `c / 12.92`. -/
theorem srgbTable_linear : ∀ c ≤ 10,
    646 * srgbTable.getD c 0 ≤ 50 * c + 323 ∧ 50 * c + 323 < 646 * (srgbTable.getD c 0 + 1) := by
  decide

/-- The entries of the power segment: the fifth powers of the entry's two ties `(2 v - 1) / 510` and `(2 v + 1) / 510`
enclose the twelfth power of the formula's base `(40 c + 561) / 10761`. -/
theorem srgbTable_power : ∀ c < 256, 10 < c →
    0 < srgbTable.getD c 0 ∧
    (2 * srgbTable.getD c 0 - 1) ^ 5 * 10761 ^ 12 ≤ (40 * c + 561) ^ 12 * 510 ^ 5 ∧
    (40 * c + 561) ^ 12 * 510 ^ 5 < (2 * srgbTable.getD c 0 + 1) ^ 5 * 10761 ^ 12 :=
  forall_lt_256_of_rows (by decide)

/-- The table rises because the bounds on its entries do, on each segment and from the one to the other. -/
theorem srgbTable_le_of_le {c d : ℕ} (hcd : c ≤ d) (hd : d < 256) : srgbTable.getD c 0 ≤ srgbTable.getD d 0 := by
  by_cases hc : c ≤ 10
  · obtain ⟨hlow, -⟩ := srgbTable_linear c hc
    by_cases hd10 : d ≤ 10
    · obtain ⟨-, hhigh⟩ := srgbTable_linear d hd10
      omega
    · obtain ⟨hpos, -⟩ := srgbTable_power d hd (not_le.1 hd10)
      omega
  · obtain ⟨-, hlow, -⟩ := srgbTable_power c (by omega) (not_le.1 hc)
    obtain ⟨-, -, hhigh⟩ := srgbTable_power d hd (by omega)
    have hbase : (40 * c + 561) ^ 12 * 510 ^ 5 ≤ (40 * d + 561) ^ 12 * 510 ^ 5 := by gcongr
    have hties : 2 * srgbTable.getD c 0 - 1 < 2 * srgbTable.getD d 0 + 1 :=
      lt_of_pow_lt_pow_left₀ 5 (Nat.zero_le _) (lt_of_mul_lt_mul_right' (hlow.trans_lt (hbase.trans_lt hhigh)))
    omega

/-- An entry is a byte, as the last one is 255. -/
theorem srgbOf_toNat (c : Byte) : (srgbOf c).toNat = srgbTable.getD c.toNat 0 := by
  have hlast : srgbTable.getD c.toNat 0 ≤ srgbTable.getD 255 0 :=
    srgbTable_le_of_le (Nat.le_of_lt_succ c.isLt) (by decide)
  exact Nat.mod_eq_of_lt (hlast.trans_lt (by decide))

/-- The exponent of the formula is 12/5. -/
theorem rpow_transfer_pow_five {x : ℝ} (hx : 0 ≤ x) : (x ^ (2.4 : ℝ)) ^ 5 = x ^ 12 := by
  rw [← Real.rpow_natCast, ← Real.rpow_mul hx, ← Real.rpow_natCast]
  norm_num

theorem le_rpow_transfer_iff {a x : ℝ} (ha : 0 ≤ a) (hx : 0 ≤ x) : a ≤ x ^ (2.4 : ℝ) ↔ a ^ 5 ≤ x ^ 12 := by
  rw [← rpow_transfer_pow_five hx, pow_le_pow_iff_left₀ ha (Real.rpow_nonneg hx _) (by decide)]

/-- The base of the power segment as one fraction. -/
theorem transfer_base (c : ℕ) : ((c : ℝ) / 255 + 0.055) / 1.055 = (40 * c + 561) / 10761 := by
  ring

/-- A tie against the power segment, as a comparison of natural numbers. -/
theorem tie_le_transfer_iff (k c : ℕ) :
    (k : ℝ) / 510 ≤ (((c : ℝ) / 255 + 0.055) / 1.055) ^ (2.4 : ℝ) ↔
      k ^ 5 * 10761 ^ 12 ≤ (40 * c + 561) ^ 12 * 510 ^ 5 := by
  rw [transfer_base, le_rpow_transfer_iff (by positivity) (by positivity), div_pow, div_pow,
    div_le_div_iff₀ (by positivity) (by positivity)]
  exact_mod_cast Iff.rfl

theorem floor_linear_segment {c : ℕ} (hc : c ≤ 10) :
    ⌊(c : ℝ) / 255 / 12.92 * 255 + 0.5⌋ = (srgbTable.getD c 0 : ℤ) := by
  obtain ⟨hlow, hhigh⟩ := srgbTable_linear c hc
  generalize srgbTable.getD c 0 = v at hlow hhigh
  have hlow' : 646 * (v : ℝ) ≤ 50 * c + 323 := by exact_mod_cast hlow
  have hhigh' : 50 * (c : ℝ) + 323 < 646 * (v + 1) := by exact_mod_cast hhigh
  have hhalf : (c : ℝ) / 255 / 12.92 * 255 + 0.5 = (50 * c + 323) / 646 := by ring
  rw [hhalf, Int.floor_eq_iff, Int.cast_natCast]
  constructor <;> linarith

theorem floor_power_segment {c : ℕ} (hc : c < 256) (hpower : 10 < c) :
    ⌊(((c : ℝ) / 255 + 0.055) / 1.055) ^ (2.4 : ℝ) * 255 + 0.5⌋ = (srgbTable.getD c 0 : ℤ) := by
  obtain ⟨hpos, hlow, hhigh⟩ := srgbTable_power c hc hpower
  generalize srgbTable.getD c 0 = v at hpos hlow hhigh
  have hbelow := (tie_le_transfer_iff (2 * v - 1) c).2 hlow
  have habove := not_le.1 (mt (tie_le_transfer_iff (2 * v + 1) c).1 (not_le.2 hhigh))
  rw [Nat.cast_sub (by omega)] at hbelow
  push_cast at hbelow habove
  rw [Int.floor_eq_iff, Int.cast_natCast]
  constructor <;> linarith

/-- Settles O26: each segment of the formula rounds to the table's entries on it, and the table does not fall. -/
theorem srgbTableIsTheFormula : Obligations.SrgbTableIsTheFormula := by
  refine ⟨fun c => ?_, fun c d hcd => ?_⟩
  · rw [srgbOf_toNat]
    split
    · next hlinear => exact (floor_linear_segment ((linear_segment_iff _).1 hlinear)).symm
    · next hpower =>
      exact (floor_power_segment c.isLt (not_le.1 (mt (linear_segment_iff _).2 hpower))).symm
  · rw [srgbOf_toNat, srgbOf_toNat]
    exact srgbTable_le_of_le hcd d.isLt

end Sys2Proof.Machine
end

section
/-! One block of phase DECODE by the rules (44_raster R254 to R256): the bytes the ENGINE fetches are the block's word, its
instruction writes the pixels the rules give that word, and only a BC7 block in the reserved mode ends the DECODE. -/

namespace Sys2Proof.Machine

/-! ## The word of a block -/

/-- The low 64 bits of a block's word do not depend on the width it is read with. -/
theorem extractLsb'_blockBits_64 (blk : List Byte) {lo n : Nat} (h : lo + n ≤ 64) :
    (blockBits 64 blk).extractLsb' lo n = (blockBits 128 blk).extractLsb' lo n := by
  refine BitVec.eq_of_getLsbD_eq fun j hj => ?_
  simp only [BitVec.getLsbD_extractLsb', blockBits, BitVec.getLsbD_ofNat, hj, decide_true, Bool.true_and,
    decide_eq_true (show lo + j < 64 by omega), decide_eq_true (show lo + j < 128 by omega)]

/-- The mode the decoder finds is the rule's (42_bc7 R182). -/
theorem bc7Mode_of_bc7ModeOf {w : BitVec 128} {m : Nat} (h : bc7ModeOf w = some m) : Rule.bc7Mode w = m := by
  obtain ⟨hset, hm, hclear⟩ := List.find?_range_eq_some.1 h
  have hm8 : m < (List.range 8).length := by simpa using hm
  refine (List.findIdx_eq hm8).2 ⟨?_, fun j hj => ?_⟩
  · rwa [List.getElem_range]
  · rw [List.getElem_range]
    simpa using hclear j hj

/-! ## The current block -/

/-- The bytes of block `k` of the slice (44_raster R255). -/
def sliceBlock (s : State) (k : Nat) : List Byte := inBytes s (s.sliceOffset.toNat + k * s.loc.bs) s.loc.bs

/-- Pixel `i` of block `k` of the slice, by the rules of the resolved format (44_raster R256). -/
def slicePixel (s : State) (k i : Nat) : Pixel :=
  Rule.blockPixel s.loc.fmt s.loc.srgb (blockBits 128 (sliceBlock s k)) i

/-- Block `k` of the slice is a BC7 block in the reserved mode (42_bc7 R208). -/
def ReservedBlock (s : State) (k : Nat) : Prop :=
  s.loc.fmt = .bc7 ∧ inByte s (s.sliceOffset.toNat + k * s.loc.bs) = 0

/-- What a block instruction does to the DECODE, when the block's pixels by the rules are `px` and `reserved` says that it
is in the reserved mode. -/
def BlockRuns (reserved : Prop) (px : Nat → Pixel) (s : State) (o : Host.Outcome State Fault Refusal) : Prop :=
  (reserved ∧ o = .next (raiseBlockFail .bc7ReservedMode (blockIndex s) s)) ∨
    (¬ reserved ∧ o = finishBlock ((List.range 16).map px) s)

/-- A DXT1 block by the rules; its word is the low half of a 128-bit word. -/
theorem exec_decodeDxt1 (blk : List Byte) (srgb : Bool) (s : State) :
    exec (decodeDxt1 (blockBits 64 blk)) s =
      finishBlock ((List.range 16).map (Rule.blockPixel .dxt1 srgb (blockBits 128 blk))) s := by
  rw [decodeDxt1, exec_dxt1, extractLsb'_blockBits_64 blk (by decide), extractLsb'_blockBits_64 blk (by decide),
    extractLsb'_blockBits_64 blk (by decide)]
  rfl

/-- A BC7 block by the rules: the reserved mode, or the pixels of its mode. -/
theorem exec_decodeBc7 (w : BitVec 128) (s : State) :
    BlockRuns (w.extractLsb' 0 8 = 0#8) (Rule.blockPixel .bc7 s.loc.srgb w) s (exec (decodeBc7 w) s) := by
  cases hmode : bc7ModeOf w with
  | none =>
    rw [decodeBc7_of_reserved hmode]
    exact .inl ⟨bc7ModeOf_eq_none.1 hmode, rfl⟩
  | some m =>
    have hpixels : Rule.blockPixel .bc7 s.loc.srgb w = Rule.bc7Pixel s.loc.srgb m w := by
      rw [← bc7Mode_of_bc7ModeOf hmode]
      rfl
    refine .inr ⟨fun hzero => ?_, ?_⟩
    · cases hmode.symm.trans (bc7ModeOf_eq_none.2 hzero)
    · rw [exec_bc7 (modeOf_decodeBc7 hmode), bc7Bits_decodeBc7, hpixels]

/-- The instruction a decode key gives runs the block the rules describe. -/
theorem exec_decoded_block {s : State} {blk : List Byte} {i : Instr} (h : decode (.block s.loc.fmt blk) = .ok i) :
    BlockRuns (s.loc.fmt = .bc7 ∧ blk.getD 0 0 = 0) (Rule.blockPixel s.loc.fmt s.loc.srgb (blockBits 128 blk)) s
      (exec i s) := by
  obtain ⟨hfmt, -, rfl⟩ | ⟨hfmt, -, rfl⟩ | ⟨hfmt, -, rfl⟩ | ⟨hfmt, -, rfl⟩ := decode_block_eq_ok h <;> rw [hfmt]
  · exact .inr ⟨fun hres => BlockFormat.noConfusion hres.1, exec_decodeDxt1 blk _ s⟩
  · exact .inr ⟨fun hres => BlockFormat.noConfusion hres.1, exec_dxt3 _ _ _ _ s⟩
  · exact .inr ⟨fun hres => BlockFormat.noConfusion hres.1, exec_dxt5 _ _ _ _ _ _ s⟩
  · have hrun := exec_decodeBc7 (blockBits 128 blk) s
    rw [extractLsb'_blockBits_low] at hrun
    simp only [true_and]
    exact hrun

/-- The low byte of a block is the first one fetched. -/
theorem sliceBlock_getD_zero {s : State} (h : s.loc.fmt = .bc7) (hs : SliceReady s) (k : Nat) :
    (sliceBlock s k).getD 0 0 = inByte s (s.sliceOffset.toNat + k * s.loc.bs) := by
  have hbs : 16 = s.loc.bs := Option.some.inj ((congrArg blockLength h).symm.trans hs.format)
  rw [List.getD_eq_getElem?_getD, sliceBlock, inBytes_getElem? _ _ _ _ (by omega)]
  rfl

/-- A block of phase DECODE by the rules: the DECODE ends at a block in the reserved mode, and every other block is
written (44_raster R254, R256). -/
theorem blockStep_by_rule {s : State} (hs : SliceReady s) (hr : RasterReady s) :
    (ReservedBlock s (blockIndex s) ∧
      blockStep s = .next (raiseBlockFail .bc7ReservedMode (blockIndex s) s)) ∨
    (¬ ReservedBlock s (blockIndex s) ∧
      blockStep s = .next (afterBlock ((List.range 16).map (slicePixel s (blockIndex s))) s)) := by
  obtain ⟨i, hi⟩ := fetchBlock_ok hs hr
  have hres : (s.loc.fmt = .bc7 ∧ (sliceBlock s (blockIndex s)).getD 0 0 = 0) ↔ ReservedBlock s (blockIndex s) :=
    and_congr_right fun hfmt => by rw [sliceBlock_getD_zero hfmt hs]
  rw [blockStep_of_fetch hi, ← hres]
  exact (exec_decoded_block (fetchBlock_eq_ok.1 hi).2).imp_right
    fun ⟨hno, he⟩ => ⟨hno, he.trans (finishBlock_of_fits hr.fits _)⟩

end Sys2Proof.Machine
end

section
/-! Phase DECODE and the raster (44_raster R254, R257): the blocks run in row-major order, each writes its own pixels and
leaves those written before it, and the first block in the reserved mode ends the DECODE. -/

namespace Sys2Proof.Machine

/-! ## Pixels in OUT -/

/-- The four bytes of pixel `(X, Y)` in an OUT that holds a raster of width `W` are those of `p` (20_memory R62). -/
def ShowsPixel (m : Memory) (W X Y : Nat) (p : Pixel) : Prop :=
  ∀ c < 4, m.read (pixelAddr W X Y + c) = some ((pixelBytes p).getD c 0)

/-- A place in a row-major order names its row and its column. -/
theorem row_column_unique {w x y x' y' : Nat} (hx : x < w) (hx' : x' < w) (h : y * w + x = y' * w + x') :
    x = x' ∧ y = y' := by
  have hw : 0 < w := Nat.zero_lt_of_lt hx
  have hplace := (Nat.div_mod_unique hw).2 ⟨(by rw [Nat.mul_comm, Nat.add_comm] : x + w * y = y * w + x), hx⟩
  have hplace' := (Nat.div_mod_unique hw).2 ⟨(by rw [Nat.mul_comm, Nat.add_comm] : x' + w * y' = y' * w + x'), hx'⟩
  rw [h] at hplace
  exact ⟨hplace.2.symm.trans hplace'.2, hplace.1.symm.trans hplace'.1⟩

/-- Two pixels that have a byte of OUT in common are one. -/
theorem pixelAddr_unique {W X Y X' Y' c c' : Nat} (hX : X < W) (hX' : X' < W) (hc : c < 4) (hc' : c' < 4)
    (h : pixelAddr W X Y + c = pixelAddr W X' Y' + c') : X = X' ∧ Y = Y' := by
  unfold pixelAddr at h
  exact row_column_unique hX hX' (by omega)

/-- The index of the block pixel `(X, Y)` lies in (44_raster R254). -/
def blockOf (W X Y : Nat) : Nat := Y / 4 * blocksAlong W + X / 4

/-- Pixel `(X, Y)` of the raster by the rules, before ALPHA: its tile position in its block (44_raster R254). -/
def imagePixel (s : State) (X Y : Nat) : Pixel := slicePixel s (blockOf s.ras.W X Y) (4 * (Y % 4) + X % 4)

/-- OUT `m` holds the pixels of the first `k` blocks of the image of `s`. -/
def WrittenBelow (s : State) (m : Memory) (k : Nat) : Prop :=
  ∀ X Y, X < s.ras.W → Y < s.ras.H → blockOf s.ras.W X Y < k → ShowsPixel m s.ras.W X Y (imagePixel s X Y)

theorem div_four_lt_blocksAlong {x d : Nat} (h : x < d) : x / 4 < blocksAlong d := by
  unfold blocksAlong
  omega

/-- Every pixel of the image lies in one of its blocks. -/
theorem blockOf_lt {W H X Y : Nat} (hX : X < W) (hY : Y < H) : blockOf W X Y < blocksAlong W * blocksAlong H := by
  have hx := div_four_lt_blocksAlong hX
  calc blockOf W X Y < (Y / 4 + 1) * blocksAlong W := by unfold blockOf; rw [Nat.add_mul]; omega
    _ ≤ blocksAlong H * blocksAlong W := Nat.mul_le_mul_right _ (div_four_lt_blocksAlong hY)
    _ = blocksAlong W * blocksAlong H := Nat.mul_comm _ _

/-- The current block is the one of its pixels. -/
theorem blockOf_eq_blockIndex {s : State} (hr : RasterReady s) {X Y : Nat} (hX : X < s.ras.W) :
    blockOf s.ras.W X Y = blockIndex s ↔ X / 4 = s.ras.blkX ∧ Y / 4 = s.ras.blkY := by
  have hcurrent := hr.current.1
  rw [hr.columns] at hcurrent
  rw [blockIndex, hr.columns]
  constructor
  · exact row_column_unique (div_four_lt_blocksAlong hX) hcurrent
  · rintro ⟨hx, hy⟩
    rw [blockOf, hx, hy]

/-- A block writes its own pixels, and leaves those of the blocks before it (44_raster R254). -/
theorem writtenBelow_afterBlock {s : State} (hr : RasterReady s) (hw : WrittenBelow s s.outMem (blockIndex s)) :
    WrittenBelow s (afterBlock ((List.range 16).map (slicePixel s (blockIndex s))) s).outMem (blockIndex s + 1) := by
  intro X Y hX hY hlt c hc
  obtain ⟨hwritten, hkept⟩ := blockWritten_afterBlock (slicePixel s (blockIndex s)) s
  have hblock := blockOf_eq_blockIndex hr (Y := Y) hX
  by_cases hb : X / 4 = s.ras.blkX ∧ Y / 4 = s.ras.blkY
  · have hx : 4 * s.ras.blkX + (4 * (Y % 4) + X % 4) % 4 = X := by omega
    have hy : 4 * s.ras.blkY + (4 * (Y % 4) + X % 4) / 4 = Y := by omega
    have hpixel := hwritten (4 * (Y % 4) + X % 4) (by omega) (by rwa [hx]) (by rwa [hy]) c hc
    rw [hx, hy] at hpixel
    rw [imagePixel, hblock.2 hb]
    exact hpixel
  · have hbefore : blockOf s.ras.W X Y < blockIndex s :=
      Nat.lt_of_le_of_ne (Nat.le_of_lt_succ hlt) fun he => hb (hblock.1 he)
    rw [hkept _ fun i hi hx _ c' hc' he => ?_]
    · exact hw X Y hX hY hbefore c hc
    · obtain ⟨hX', hY'⟩ := pixelAddr_unique hX hx hc hc' he
      exact hb ⟨by omega, by omega⟩

/-- Forcing alpha changes the alpha byte of every pixel of the image and no other byte of it (44_raster R257). -/
theorem showsPixel_forceAlpha {m : Memory} {W H X Y : Nat} {p : Pixel} (hX : X < W) (hY : Y < H)
    (h : ShowsPixel m W X Y p) : ShowsPixel (forceAlpha (W * H) m) W X Y { p with a := 255 } := by
  intro c hc
  have hlt : Y * W + X < W * H := by
    have hin := pixelAddr_lt hX hY
    rw [pixelAddr, Nat.mul_assoc] at hin
    omega
  have hmod : (pixelAddr W X Y + c) % 4 = c := by unfold pixelAddr; omega
  have hdiv : (pixelAddr W X Y + c) / 4 = Y * W + X := by unfold pixelAddr; omega
  rw [read_forceAlpha, hmod, hdiv]
  by_cases hc3 : c = 3
  · rw [if_pos ⟨hc3, hlt⟩, hc3]
    rfl
  · rw [if_neg fun hforced => hc3 hforced.1, h c hc]
    obtain rfl | rfl | rfl : c = 0 ∨ c = 1 ∨ c = 2 := by omega
    all_goals rfl

/-! ## What the frame of the blocks keeps -/

/-- The blocks find the slice, its format and IN as they were. -/
theorem RasterFrame.source {s t : State} (h : RasterFrame s t) :
    t.sliceOffset = s.sliceOffset ∧ t.loc = s.loc ∧ ∀ a, inByte t a = inByte s a := by
  have he : t = _ := h.frame
  exact ⟨(congrArg State.sliceOffset he :), (congrArg State.loc he :),
    inByte_congr (congrArg State.inMem he :) (congrArg State.epoch he :)⟩

theorem imagePixel_of_frame {s t : State} (h : RasterFrame s t) (X Y : Nat) : imagePixel t X Y = imagePixel s X Y := by
  obtain ⟨hoff, hloc, hin⟩ := h.source
  simp only [imagePixel, slicePixel, sliceBlock, hoff, hloc, h.width, inBytes_congr fun a _ _ => hin a]

theorem writtenBelow_of_frame {s t : State} (h : RasterFrame s t) (m : Memory) (k : Nat) :
    WrittenBelow t m k ↔ WrittenBelow s m k := by
  simp only [WrittenBelow, h.width, h.height, imagePixel_of_frame h]

theorem reservedBlock_of_frame {s t : State} (h : RasterFrame s t) (k : Nat) :
    ReservedBlock t k ↔ ReservedBlock s k := by
  obtain ⟨hoff, hloc, hin⟩ := h.source
  rw [ReservedBlock, ReservedBlock, hoff, hloc, hin]

/-! ## All blocks -/

/-- How the blocks left in `s` end: all of them are written and the phase is ALPHA, or the first of them that is in the
reserved mode ends the DECODE, from the state `v` that is due to run it (44_raster R251, R254, R256). -/
inductive BlocksEnd (s t : State) : Prop
  | written (hp : t.phase = .alpha) (hframe : RasterFrame s t)
      (hno : ∀ j, blockIndex s ≤ j → j < s.ras.BW * s.ras.BH → ¬ ReservedBlock s j)
      (hw : WrittenBelow s t.outMem (s.ras.BW * s.ras.BH))
  | reserved (v : State) (hframe : RasterFrame s v) (hfrom : blockIndex s ≤ blockIndex v)
      (hlt : blockIndex v < s.ras.BW * s.ras.BH) (hres : ReservedBlock s (blockIndex v))
      (hno : ∀ j, blockIndex s ≤ j → j < blockIndex v → ¬ ReservedBlock s j)
      (ht : t = raiseBlockFail .bc7ReservedMode (blockIndex v) v)

/-- A block that is written, and then the others. -/
theorem BlocksEnd.after {s u t : State} (hframe : RasterFrame s u) (hindex : blockIndex u = blockIndex s + 1)
    (hcount : u.ras.BW * u.ras.BH = s.ras.BW * s.ras.BH) (hfirst : ¬ ReservedBlock s (blockIndex s))
    (h : BlocksEnd u t) : BlocksEnd s t := by
  have hno {k : Nat} (hrest : ∀ j, blockIndex u ≤ j → j < k → ¬ ReservedBlock u j) (j : Nat) (hle : blockIndex s ≤ j)
      (hj : j < k) : ¬ ReservedBlock s j := by
    obtain rfl | hne := eq_or_ne j (blockIndex s)
    · exact hfirst
    · rw [← reservedBlock_of_frame hframe]
      exact hrest j (by omega) hj
  cases h with
  | written hp hrest hnone hw =>
    rw [hcount] at hnone hw
    exact .written hp (hframe.trans hrest) (hno hnone) ((writtenBelow_of_frame hframe _ _).1 hw)
  | reserved v hrest hfrom hlt hres hleast ht =>
    exact .reserved v (hframe.trans hrest) (by omega) (hcount ▸ hlt) ((reservedBlock_of_frame hframe _).1 hres)
      (hno hleast) ht

/-- ALPHA comes behind the last block alone (44_raster R251). -/
theorem blockIndex_succ_of_alpha {s : State} (hp : s.phase = .decode) (hr : RasterReady s) {px : List Pixel}
    (h : (afterBlock px s).phase = .alpha) : blockIndex s + 1 = s.ras.BW * s.ras.BH := by
  obtain ⟨hx, hy⟩ := hr.current
  have hlast : ¬ s.ras.blkX + 1 < s.ras.BW ∧ ¬ s.ras.blkY + 1 < s.ras.BH := by
    rw [afterBlock, nextBlock_phase] at h
    simp only [releaseDatapath_ras, releaseDatapath_phase, hp] at h
    split_ifs at h with h1 h2
    exact ⟨h1, h2⟩
  have hcols : s.ras.BW = s.ras.blkX + 1 := by omega
  have hrows : s.ras.BH = s.ras.blkY + 1 := by omega
  rw [blockIndex, hcols, hrows]
  ring

/-- Phase DECODE run for as many blocks as are left (44_raster R254). -/
theorem runBlocks_by_rule {n : Nat} {s t : State} (hp : s.phase = .decode) (hs : SliceReady s) (hr : RasterReady s)
    (hn : blockIndex s + n = s.ras.BW * s.ras.BH) (hw : WrittenBelow s s.outMem (blockIndex s))
    (h : runBlocks n s = .next t) : BlocksEnd s t := by
  induction n generalizing s with
  | zero =>
    have := blockIndex_lt hr
    omega
  | succ n ih =>
    obtain ⟨hres, he⟩ | ⟨hres, he⟩ := blockStep_by_rule hs hr <;> rw [runBlocks_succ_next hp he] at h
    · cases (runBlocks_of_ne Phase.noConfusion).symm.trans h
      exact .reserved s (.refl s) le_rfl (blockIndex_lt hr) hres (fun j hle hlt => by omega) rfl
    · have hwritten := writtenBelow_afterBlock hr hw
      generalize hpx : (List.range 16).map (slicePixel s (blockIndex s)) = px at h hwritten
      have hframe := rasterFrame_afterBlock px s
      have hindex := blockIndex_afterBlock hr px
      have hcount : (afterBlock px s).ras.BW * (afterBlock px s).ras.BH = s.ras.BW * s.ras.BH := by simp [afterBlock]
      obtain hp' | hp' := afterBlock_phase hp px
      · obtain ⟨hs', hr'⟩ := (phaseInv_decode_iff hp').1 (phaseInv_afterBlock hp hs hr px)
        refine .after hframe hindex hcount hres (ih hp' hs' hr' (by omega) ?_ h)
        rw [hindex]
        exact (writtenBelow_of_frame hframe _ _).2 hwritten
      · cases (runBlocks_of_ne (by simp [hp'])).symm.trans h
        have hlast := blockIndex_succ_of_alpha hp hr hp'
        refine .written hp' hframe (fun j hle hlt => ?_) (hlast ▸ hwritten)
        obtain rfl : j = blockIndex s := by omega
        exact hres

/-! ## The raster phases -/

/-- A pixel as ALPHA leaves it (44_raster R257). -/
def alphaPixel (s : State) (p : Pixel) : Pixel := if ignoreAlpha s then { p with a := 255 } else p

/-- How the raster phases from block 0 on end: with OK and the whole image in OUT, or at the least block that is in the
reserved mode (44_raster R254 to R258). -/
inductive RasterEnds (s t : State) : Prop
  | ok (v : State) (hframe : RasterFrame s v) (hno : ∀ j, j < s.ras.BW * s.ras.BH → ¬ ReservedBlock s j)
      (hshows : ∀ X Y, X < s.ras.W → Y < s.ras.H →
        ShowsPixel v.outMem s.ras.W X Y (alphaPixel s (imagePixel s X Y)))
      (ht : t = completeOk v)
  | reserved (v : State) (hframe : RasterFrame s v) (hlt : blockIndex v < s.ras.BW * s.ras.BH)
      (hres : ReservedBlock s (blockIndex v)) (hno : ∀ j, j < blockIndex v → ¬ ReservedBlock s j)
      (ht : t = raiseBlockFail .bc7ReservedMode (blockIndex v) v)

/-- ALPHA behind the last block: the image with alpha forced on request (44_raster R257). -/
theorem alphaPhase_shows {s u v : State} (hr : RasterReady s) (hp : u.phase = .alpha) (hframe : RasterFrame s u)
    (hw : WrittenBelow s u.outMem (s.ras.BW * s.ras.BH)) (hv : alphaPhase u = .next v) :
    RasterFrame s v ∧ v.phase = .finish ∧
      ∀ X Y, X < s.ras.W → Y < s.ras.H → ShowsPixel v.outMem s.ras.W X Y (alphaPixel s (imagePixel s X Y)) := by
  have hflag : ignoreAlpha u = ignoreAlpha s := congrArg (BitVec.getLsbD · 0) (congrArg State.reqFlags hframe.frame :)
  have hshows {X Y : Nat} (hX : X < s.ras.W) (hY : Y < s.ras.H) : ShowsPixel u.outMem s.ras.W X Y (imagePixel s X Y) :=
    hw X Y hX hY (by rw [hr.columns, hr.rows]; exact blockOf_lt hX hY)
  unfold alphaPixel
  obtain ⟨hoff, he⟩ | ⟨hon, -, he⟩ | ⟨-, -, he⟩ := alphaPhase_cases hp <;> cases he.symm.trans hv
  · refine ⟨hframe.trans ⟨rfl, rfl, rfl⟩, rfl, fun X Y hX hY => ?_⟩
    rw [← hflag, hoff]
    exact hshows hX hY
  · refine ⟨hframe.trans ⟨rfl, rfl, rfl⟩, rfl, fun X Y hX hY => ?_⟩
    rw [← hflag, hon, if_pos rfl, hframe.width, hframe.height]
    exact showsPixel_forceAlpha hX hY (hshows hX hY)

/-- The raster phases by the rules (44_raster R254 to R258). -/
theorem runRaster_by_rule {s t : State} (hp : s.phase = .decode) (hs : SliceReady s) (hr : RasterReady s)
    (h0 : blockIndex s = 0) (h : runRaster s = .next t) : RasterEnds s t := by
  obtain ⟨hne, -⟩ | ⟨u, v, -, hu, hv, rfl⟩ := runRaster_next h
  · exact absurd hp hne
  · have hnothing : WrittenBelow s s.outMem (blockIndex s) := fun X Y _ _ hlt => by omega
    cases runBlocks_by_rule hp hs hr (by omega) hnothing hu with
    | written hpu hframe hno hw =>
      obtain ⟨hframe', hfinish, hshows⟩ := alphaPhase_shows hr hpu hframe hw hv
      exact .ok v hframe' (fun j => hno j (by omega)) hshows (finishPhase_of_eq hfinish)
    | reserved w hframe _ hlt hres hno hw =>
      subst hw
      cases (alphaPhase_of_ne Phase.noConfusion).symm.trans hv
      exact .reserved w hframe hlt hres (fun j => hno j (by omega)) (finishPhase_of_ne Phase.noConfusion)

end Sys2Proof.Machine
end

section
/-! The raster and the result of a whole DECODE: after OK OUT holds the pixels of the rules (44_raster R254 to R258), and
STATUS, ERR_INFO and ERR_BLOCK are those of the first check that holds (60_exceptions R287), after every ending. -/

namespace Sys2Proof.Machine

/-! ## The blocks of a DECODE -/

/-- SLICE_OFFSET is the rule's once the slice lies in the stream. -/
theorem rasterState_sliceOffset {s : State} {L : Nat} (h : Rule.slicePos s L + Rule.size s L ≤ s.inLen.toNat) :
    (rasterState s L).sliceOffset.toNat = Rule.slicePos s L := sliceWord_of_lt (slice_lt h).1

theorem rasterState_bs {s : State} (h : HasDecoder s) (L : Nat) : (rasterState s L).loc.bs = Rule.blockBytes s :=
  blockBytesOf_format h _

theorem rasterState_columns (s : State) (L : Nat) : (rasterState s L).ras.BW = Rule.columns s L :=
  congrArg blocksAlong (rasterState_W s L)

theorem rasterState_rows (s : State) (L : Nat) : (rasterState s L).ras.BH = Rule.rows s L :=
  congrArg blocksAlong (rasterState_H s L)

theorem inByte_rasterState (s : State) (L k : Nat) : inByte (rasterState s L) k = inByte s k := rfl

/-- The pixels the raster phases write are the rule's (44_raster R254, R255). -/
theorem imagePixel_rasterState {s : State} {L : Nat} (hfmt : HasDecoder s)
    (hend : Rule.slicePos s L + Rule.size s L ≤ s.inLen.toNat) (X Y : Nat) :
    imagePixel (rasterState s L) X Y = Rule.rasterPixel s L X Y := by
  have hbytes (k : Nat) : sliceBlock (rasterState s L) k =
      inBytes s (Rule.slicePos s L + k * Rule.blockBytes s) (Rule.blockBytes s) := by
    rw [sliceBlock, rasterState_sliceOffset hend, rasterState_bs hfmt]
    exact inBytes_congr fun a _ _ => inByte_rasterState s L a
  rw [imagePixel, slicePixel, hbytes, rasterState_W]
  rfl

/-- A block of the raster phases is in the reserved mode exactly when it is so by the rule (60_exceptions R287). -/
theorem reservedBlock_rasterState {s : State} {L : Nat} (hfmt : HasDecoder s)
    (hend : Rule.slicePos s L + Rule.size s L ≤ s.inLen.toNat) (k : Nat) :
    ReservedBlock (rasterState s L) k ↔
      (decide (Rule.format s = .bc7) && inByte s (Rule.slicePos s L + k * 16) == 0) = true := by
  rw [ReservedBlock, rasterState_sliceOffset hend, rasterState_bs hfmt, Bool.and_eq_true, decide_eq_true_iff, beq_iff_eq]
  refine and_congr_right fun (hbc7 : Rule.format s = .bc7) => ?_
  have hbs : Rule.blockBytes s = 16 := by rw [Rule.blockBytes, hbc7]; rfl
  rw [hbs, inByte_rasterState]

/-- The raster phases of a DECODE by the rules. -/
theorem rasterState_ends {s t : State} {L : Nat} (hfmt : HasDecoder s)
    (hend : Rule.slicePos s L + Rule.size s L ≤ s.inLen.toNat)
    (hcap : 4 * Rule.width s L * Rule.height s L ≤ s.cfg.outCapacity)
    (ht : runRaster (rasterState s L) = .next t) : RasterEnds (rasterState s L) t := by
  obtain ⟨hslice, hraster⟩ := rasterState_ready hfmt hend hcap
  exact runRaster_by_rule rfl hslice hraster (Nat.zero_mul _) ht

/-! ## The raster -/

/-- What OK says: the slice the DECODE decoded, the dimensions of its level, and the image in OUT (44_raster R254 to
R258). -/
structure ImageShown (s t : State) (L : Nat) : Prop where
  whole : Rule.HeaderWhole s
  decoder : HasDecoder s
  level : Rule.level s = some L
  inside : Rule.slicePos s L + Rule.size s L ≤ s.inLen.toNat
  width : t.outWidth.toNat = Rule.width s L
  height : t.outHeight.toNat = Rule.height s L
  shows : ∀ X Y, X < Rule.width s L → Y < Rule.height s L →
    ShowsPixel t.outMem (Rule.width s L) X Y (alphaPixel s (Rule.rasterPixel s L X Y))

theorem DecodeEnding.imageShown {s t : State} (h : DecodeEnding s t) (hok : t.status.result = .ok) :
    ∃ L, ImageShown s t L := by
  cases h with
  | badHeader f _ _ ht => subst ht; exact absurd hok (failureResult_ne f).2.1
  | passThrough _ _ ht => subst ht; exact Result.noConfusion hok
  | noDecoder _ _ ht => subst ht; exact Result.noConfusion hok
  | notFound _ _ _ ht => subst ht; exact Result.noConfusion hok
  | io L _ _ _ _ ht => subst ht; exact Result.noConfusion hok
  | capacity L _ _ _ _ _ ht => subst ht; exact Result.noConfusion hok
  | raster L hh hfmt hl hend hcap ht =>
    obtain ⟨-, ⟨-, hw, hheight⟩ | ⟨hr, -⟩⟩ := rasterState_results hfmt hend hcap ht
    · cases rasterState_ends hfmt hend hcap ht with
      | ok v hframe hno hshows hv =>
        refine ⟨L, hh, hfmt, hl, hend, hw, hheight, fun X Y hX hY => ?_⟩
        have hpixel := hshows X Y (by rwa [rasterState_W]) (by rwa [rasterState_H])
        rw [rasterState_W, imagePixel_rasterState hfmt hend] at hpixel
        rw [hv]
        exact hpixel
      | reserved v _ _ _ _ hv => subst hv; exact Result.noConfusion hok
    · rw [hr] at hok
      cases hok

/-- The four bytes of a pixel ALPHA has passed (44_raster R257). -/
theorem showsPixel_alphaPixel {s : State} {m : Memory} {W X Y : Nat} {p : Pixel}
    (h : ShowsPixel m W X Y (alphaPixel s p)) :
    m.read (4 * (Y * W + X)) = some p.r ∧ m.read (4 * (Y * W + X) + 1) = some p.g ∧
      m.read (4 * (Y * W + X) + 2) = some p.b ∧
      m.read (4 * (Y * W + X) + 3) = some (if s.reqFlags.getLsbD 0 then 255 else p.a) := by
  unfold alphaPixel ignoreAlpha at h
  split at h <;> rename_i hflag
  · rw [if_pos hflag]
    exact ⟨h 0 (by decide), h 1 (by decide), h 2 (by decide), h 3 (by decide)⟩
  · rw [if_neg hflag]
    exact ⟨h 0 (by decide), h 1 (by decide), h 2 (by decide), h 3 (by decide)⟩

/-- Settles O36: the run's image, byte by byte. -/
theorem rasterIsTheDecodedBlocks : Obligations.RasterIsTheDecodedBlocks := by
  intro data s t hcmd ht hok
  have hend := decodeEnding_of_runDecode ((exec_decode_of_commanded hcmd).symm.trans ht)
  obtain ⟨L, himage⟩ := hend.imageShown hok
  exact ⟨L, himage.level, fun X Y hX hY => showsPixel_alphaPixel (himage.shows X Y hX hY)⟩

/-! ## The verdict -/

/-- The checks of PARSE are the first four (60_exceptions R287). -/
theorem verdict_of_parseFailure {s : State} {f : Failure} (h : parseFailure (startDecode s) = some f) :
    Rule.verdict s = (failureResult f, failureInfo f, 0) := by
  have hlen : streamLength (startDecode s) = s.inLen.toNat := rfl
  have hdx10 : streamHasDx10 (startDecode s) = Rule.dx10 s := streamHasDx10_eq (startDecode s)
  have hmagic : inWord (startDecode s) 0 = magicWord ↔ inRead s 0 4 = 0x20534444 := inWord_eq_iff _ _ _
  unfold parseFailure at h
  unfold Rule.verdict
  simp only [hlen, hdx10, ne_eq, hmagic] at h ⊢
  split_ifs at h ⊢ <;> cases h <;> rfl

/-- A whole header passes the checks of PARSE. -/
theorem headerChecks_of_whole {s : State} (h : Rule.HeaderWhole s) :
    ¬ s.inLen.toNat < 4 ∧ ¬ inRead s 0 4 ≠ 0x20534444 ∧ ¬ s.inLen.toNat < 128 ∧
      ¬ (Rule.dx10 s = true ∧ s.inLen.toNat < 148) := by
  obtain ⟨hlen, hmagic, hdx10⟩ := h
  refine ⟨by omega, not_not.2 hmagic, by omega, fun ⟨hd, hlt⟩ => ?_⟩
  have := hdx10 hd
  omega

theorem verdict_of_passThrough {s : State} (h : Rule.HeaderWhole s) (hfmt : Rule.format s = .passThrough) :
    Rule.verdict s = (.passThrough, 0, 0) := by
  obtain ⟨h4, hmagic, h128, h148⟩ := headerChecks_of_whole h
  rw [Rule.verdict, if_neg h4, if_neg hmagic, if_neg h128, if_neg h148, if_pos hfmt]

theorem verdict_of_noDecoder {s : State} (h : Rule.HeaderWhole s)
    (hfmt : Rule.format s = .unsupported ∨ Rule.format s = .uncompressed) :
    Rule.verdict s = (.errUnsupported, 0, 0) := by
  obtain ⟨h4, hmagic, h128, h148⟩ := headerChecks_of_whole h
  have hpt : Rule.format s ≠ .passThrough := by rcases hfmt with h | h <;> simp [h]
  rw [Rule.verdict, if_neg h4, if_neg hmagic, if_neg h128, if_neg h148, if_neg hpt, if_pos hfmt]

theorem verdict_of_notFound {s : State} (h : Rule.HeaderWhole s) (hfmt : HasDecoder s) (hl : Rule.level s = none) :
    Rule.verdict s = (.errNotFound, 0, 0) := by
  obtain ⟨h4, hmagic, h128, h148⟩ := headerChecks_of_whole h
  obtain ⟨hpt, hun, hunc⟩ := hfmt
  rw [Rule.verdict, if_neg h4, if_neg hmagic, if_neg h128, if_neg h148, if_neg hpt, if_neg (not_or.2 ⟨hun, hunc⟩), hl]

/-- Behind the locator the slice's end, the capacity and the least reserved block decide. -/
theorem verdict_of_located {s : State} {L : Nat} (h : Rule.HeaderWhole s) (hfmt : HasDecoder s)
    (hl : Rule.level s = some L) :
    Rule.verdict s =
      if Rule.slicePos s L + Rule.size s L > s.inLen.toNat then (.errIo, 0, 0)
      else if 4 * Rule.width s L * Rule.height s L > s.cfg.outCapacity then (.errCapacity, 0, 0)
      else
        ((Rule.reservedBlock s L).map fun k => (Result.errStructural, (0x0883 : Word), BitVec.ofNat 32 k)).getD
          (.ok, 0, 0) := by
  obtain ⟨h4, hmagic, h128, h148⟩ := headerChecks_of_whole h
  obtain ⟨hpt, hun, hunc⟩ := hfmt
  rw [Rule.verdict, if_neg h4, if_neg hmagic, if_neg h128, if_neg h148, if_neg hpt, if_neg (not_or.2 ⟨hun, hunc⟩), hl]
  dsimp only
  cases Rule.reservedBlock s L <;> rfl

/-- The raster phases end at the rule's reserved block, and with OK when there is none (60_exceptions R287, 10). -/
theorem rasterState_verdict {s t : State} {L : Nat} (hfmt : HasDecoder s)
    (hend : Rule.slicePos s L + Rule.size s L ≤ s.inLen.toNat)
    (hcap : 4 * Rule.width s L * Rule.height s L ≤ s.cfg.outCapacity)
    (ht : runRaster (rasterState s L) = .next t) :
    (Rule.reservedBlock s L = none ∧ (t.status.result, t.errInfo, t.errBlock) = (.ok, 0, 0)) ∨
    ∃ k, Rule.reservedBlock s L = some k ∧
      (t.status.result, t.errInfo, t.errBlock) = (.errStructural, 0x0883, BitVec.ofNat 32 k) := by
  have hcount : (rasterState s L).ras.BW * (rasterState s L).ras.BH = Rule.columns s L * Rule.rows s L := by
    rw [rasterState_columns, rasterState_rows]
  have hclear {k : Nat} (hno : ¬ ReservedBlock (rasterState s L) k) :
      (!(decide (Rule.format s = .bc7) && inByte s (Rule.slicePos s L + k * 16) == 0)) = true := by
    rw [Bool.not_eq_true', ← Bool.not_eq_true]
    exact mt (reservedBlock_rasterState hfmt hend k).2 hno
  cases rasterState_ends hfmt hend hcap ht with
  | ok v hframe hno _ ht =>
    subst ht
    have herr : (completeOk v).errInfo = 0 ∧ (completeOk v).errBlock = 0 :=
      ⟨(congrArg State.errInfo hframe.frame :), (congrArg State.errBlock hframe.frame :)⟩
    exact .inl ⟨List.find?_range_eq_none.2 fun k hk => hclear (hno k (hcount ▸ hk)), by rw [herr.1, herr.2]; rfl⟩
  | reserved v _ hlt hres hno ht =>
    subst ht
    exact .inr ⟨blockIndex v, List.find?_range_eq_some.2 ⟨(reservedBlock_rasterState hfmt hend _).1 hres,
      List.mem_range.2 (hcount ▸ hlt), fun k hk => hclear (hno k hk)⟩, rfl⟩

/-- RESULT, ERR_INFO and ERR_BLOCK after every ending are the first check's (60_exceptions R287, R280). -/
theorem DecodeEnding.verdict {s t : State} (h : DecodeEnding s t) :
    (t.status.result, t.errInfo, t.errBlock) = Rule.verdict s := by
  cases h with
  | badHeader f _ hf ht =>
    obtain ⟨hr, -⟩ := parseFailure_info hf
    rw [verdict_of_parseFailure hf, ht, raiseFail_errInfo, if_pos hr]
    rfl
  | passThrough hh hfmt ht => rw [verdict_of_passThrough hh hfmt, ht]; rfl
  | noDecoder hh hfmt ht => rw [verdict_of_noDecoder hh hfmt, ht]; rfl
  | notFound hh hfmt hl ht => rw [verdict_of_notFound hh hfmt hl, ht]; rfl
  | io L hh hfmt hl hend ht => rw [verdict_of_located hh hfmt hl, if_pos hend, ht]; rfl
  | capacity L hh hfmt hl hend hcap ht =>
    rw [verdict_of_located hh hfmt hl, if_neg (not_lt.2 hend), if_pos hcap, ht]
    rfl
  | raster L hh hfmt hl hend hcap ht =>
    rw [verdict_of_located hh hfmt hl, if_neg (not_lt.2 hend), if_neg (not_lt.2 hcap)]
    obtain ⟨hres, he⟩ | ⟨k, hres, he⟩ := rasterState_verdict hfmt hend hcap ht <;> rw [hres, he] <;> rfl

/-- STATUS after every ending is decided by RESULT (10_state R24). -/
theorem DecodeEnding.status {s t : State} (h : DecodeEnding s t) :
    t.status = ⟨false, true, t.status.result == .ok, t.status.result == .passThrough, t.status.result⟩ := by
  cases h with
  | badHeader f _ hf ht => obtain ⟨hr, -⟩ := parseFailure_info hf; rw [ht, raiseFail_status, hr]; rfl
  | passThrough _ _ ht => rw [ht]; rfl
  | noDecoder _ _ ht => rw [ht]; rfl
  | notFound _ _ _ ht => rw [ht]; rfl
  | io _ _ _ _ _ ht => rw [ht]; rfl
  | capacity _ _ _ _ _ _ ht => rw [ht]; rfl
  | raster L _ hfmt _ hend hcap ht =>
    cases rasterState_ends hfmt hend hcap ht with
    | ok v hframe _ _ ht =>
      have hpt : v.status.ptValid = false := congrArg (fun u : State => u.status.ptValid) hframe.frame
      rw [ht, completeOk_status, hpt]
      rfl
    | reserved _ _ _ _ _ ht => rw [ht]; rfl

end Sys2Proof.Machine
end

section
/-! The steps of a DECODE that the statements name: its start (44_raster R252), its success (R258), and the order of the
phases in between (R251). -/

namespace Sys2Proof.Machine

/-! ## The first and the last step -/

/-- Settles O28: with only some steps left to the ENGINE, the command's one step is the start. -/
theorem startClearsTheResults : Obligations.StartClearsTheResults := by
  intro data n rest s hstart hidle hturns
  have hacts : actsDuring s = true := by rw [actsDuring, hturns]
  obtain ⟨hno | hbusy, -⟩ | ⟨-, -, -, he⟩ | ⟨-, -, hatomic, -⟩ := execDecode_cases data s
  · cases hno.symm.trans hstart
  · cases hbusy.symm.trans hidle
  · exact he
  · cases hatomic.symm.trans hacts

/-- Settles O40: the ENGINE's step in phase FINISH is the completion. -/
theorem finishWritesTheSuccess : Obligations.FinishWritesTheSuccess := by
  intro s hturns hp
  refine ⟨completeOk s, step_of_moved ?_, rfl⟩
  rw [nextMove_of_nil hturns, engineMove_finish hp, finishPhase_of_eq hp]

/-! ## The order of the phases -/

/-- With no turn of the outside world left, a step that answers is the ENGINE's. -/
theorem engineStep_of_step {s t : State} (hturns : s.turns = []) (h : step s = .next t) : EngineStep s t := by
  obtain hmoved | ⟨i, u, hrun, hexec⟩ := step_next_cases h
  · exact .phase ((nextMove_of_nil hturns).symm.trans hmoved)
  · obtain ⟨hp, hf, rfl⟩ := engineMove_run ((nextMove_of_nil hturns).symm.trans hrun)
    exact .block hp ((blockStep_of_fetch hf).trans hexec)

/-- Where an ENGINE step goes from the phase of `s`: to the next phase or the next block, or to the end of the DECODE with
one of the results this phase can raise (44_raster R251, R290). -/
def GoesOn (s t : State) : Prop :=
  match s.phase with
  | .idle => t.phase = .idle
  | .parse => t.phase = .resolve ∨ t.phase = .idle ∧ t.status.result = .errStructural
  | .resolve =>
    t.phase = .locate ∨ t.phase = .idle ∧ (t.status.result = .passThrough ∨ t.status.result = .errUnsupported)
  | .locate => t.phase = .alloc ∨ t.phase = .idle ∧ (t.status.result = .errNotFound ∨ t.status.result = .errIo)
  | .alloc => t.phase = .decode ∨ t.phase = .idle ∧ t.status.result = .errCapacity
  | .decode => t.phase = .decode ∨ t.phase = .alpha ∨ t.phase = .idle ∧ t.status.result = .errStructural
  | .alpha => t.phase = .finish
  | .finish => t.phase = .idle ∧ t.status.result = .ok

theorem goesOn_engineMove {s t : State} (h : engineMove s = .moved t) : GoesOn s t := by
  unfold GoesOn
  cases hp : s.phase with
  | idle => cases (engineMove_idle hp).symm.trans h; exact hp
  | parse =>
    cases (engineMove_parse hp).symm.trans h
    obtain ⟨f, hf, he⟩ | ⟨-, he⟩ := parsePhase_cases hp <;> rw [he]
    · exact .inr ⟨rfl, (parseFailure_info hf).1⟩
    · exact .inl rfl
  | resolve =>
    cases (engineMove_resolve hp).symm.trans h
    obtain ⟨-, he⟩ | ⟨-, he⟩ | ⟨-, -, -, he⟩ := resolvePhase_cases hp <;> rw [he]
    · exact .inr ⟨rfl, .inl rfl⟩
    · exact .inr ⟨rfl, .inr rfl⟩
    · exact .inl rfl
  | locate =>
    cases (engineMove_locate hp).symm.trans h
    obtain ⟨-, he⟩ | ⟨r, -, he⟩ := locatePhase_cases hp <;> rw [he]
    · exact .inr ⟨rfl, .inl rfl⟩
    · obtain ⟨-, he⟩ | ⟨-, he⟩ := foundSlice_cases r s <;> rw [he]
      · exact .inr ⟨rfl, .inr rfl⟩
      · exact .inl rfl
  | alloc =>
    cases (engineMove_alloc hp).symm.trans h
    obtain ⟨-, he⟩ | ⟨-, he⟩ := allocPhase_cases hp <;> rw [he]
    · exact .inl rfl
    · exact .inr ⟨rfl, rfl⟩
  | decode => exact absurd hp (phase_ne_decode_of_moved h)
  | alpha =>
    obtain ⟨-, he⟩ | ⟨-, -, he⟩ | ⟨-, -, he⟩ := alphaPhase_cases hp <;>
      cases he.symm.trans (alphaPhase_of_moved hp h) <;> rfl
  | finish =>
    cases (engineMove_finish hp).symm.trans h
    rw [finishPhase_of_eq hp]
    exact ⟨rfl, rfl⟩

theorem goesOn_blockStep {s t : State} (hp : s.phase = .decode) (h : blockStep s = .next t) : GoesOn s t := by
  unfold GoesOn
  rw [hp]
  obtain rfl | ⟨px, rfl⟩ := blockStep_next h
  · exact .inr (.inr ⟨rfl, rfl⟩)
  · exact (afterBlock_phase hp px).imp_right .inl

theorem EngineStep.goesOn {s t : State} (h : EngineStep s t) : GoesOn s t := by
  cases h with
  | phase h => exact goesOn_engineMove h
  | block hp h => exact goesOn_blockStep hp h

/-- Settles O42: the step is the ENGINE's, and says where it goes by its phase. -/
theorem phasesFollowTheirOrder : Obligations.PhasesFollowTheirOrder := by
  intro s t hturns h
  have hgoes := (engineStep_of_step hturns h).goesOn
  unfold GoesOn at hgoes
  refine ⟨fun hp => ?_, fun hp => ?_, fun hp => ?_, fun hp => ?_, fun hp => ?_, fun hp => ?_, fun hp => ?_,
    fun hp => ?_⟩ <;> rw [hp] at hgoes <;> exact hgoes

end Sys2Proof.Machine
end

section
/-! Two DECODEs with the same operands (44_raster R250, R252): every value the rules compute from the stream reads bytes of
it alone, so the result registers agree whatever else the two states hold, and so does the raster, up to the flag that forces
alpha (R257). -/

namespace Sys2Proof.Machine

/-! ## The operands -/

/-- The operands of a DECODE but for REQ_FLAGS, which reaches the alpha bytes alone: the parameters, the request and the
bytes of the stream. -/
structure SameOperands (s s' : State) : Prop where
  cfg : s'.cfg = s.cfg
  inLen : s'.inLen = s.inLen
  reqSlice : s'.reqSlice = s.reqSlice
  reqWidth : s'.reqWidth = s.reqWidth
  reqHeight : s'.reqHeight = s.reqHeight
  bytes : ∀ k, k < s.inLen.toNat → inByte s' k = inByte s k

section
variable {s s' : State}

theorem SameOperands.inBytes_eq (h : SameOperands s s') {addr n : Nat} (hle : addr + n ≤ s.inLen.toNat) :
    inBytes s' addr n = inBytes s addr n := inBytes_congr fun k _ hk => h.bytes k (by omega)

theorem SameOperands.inRead_eq (h : SameOperands s s') {addr n : Nat} (hle : addr + n ≤ s.inLen.toNat) :
    inRead s' addr n = inRead s addr n := congrArg leNat (h.inBytes_eq hle)

theorem SameOperands.inWord_eq (h : SameOperands s s') {addr : Nat} (hle : addr + 4 ≤ s.inLen.toNat) :
    inWord s' addr = inWord s addr := congrArg (BitVec.ofNat 32) (h.inRead_eq hle)

/-! ## The rules -/

theorem SameOperands.dx10_eq (h : SameOperands s s') (hlen : 128 ≤ s.inLen.toNat) : Rule.dx10 s' = Rule.dx10 s := by
  rw [Rule.dx10, Rule.dx10, h.inRead_eq (by omega), h.inRead_eq (by omega)]

theorem SameOperands.headerWhole_iff (h : SameOperands s s') : Rule.HeaderWhole s' ↔ Rule.HeaderWhole s := by
  unfold Rule.HeaderWhole
  rw [h.inLen]
  refine and_congr_right fun hlen => ?_
  rw [h.inRead_eq (by omega), h.dx10_eq hlen]

/-- A word of the DX10 header lies in the stream when there is one (40_container R121). -/
theorem dx10_le_inLen (hh : Rule.HeaderWhole s) (hdx10 : Rule.dx10 s = true) : 148 ≤ s.inLen.toNat := by
  obtain ⟨-, -, hlen⟩ := hh
  exact hlen hdx10

theorem SameOperands.format_eq (h : SameOperands s s') (hh : Rule.HeaderWhole s) :
    Rule.format s' = Rule.format s ∧ Rule.srgb s' = Rule.srgb s := by
  have hlen : 128 ≤ s.inLen.toNat := hh.1
  simp only [Rule.format, Rule.srgb, h.dx10_eq hlen, h.cfg, h.inRead_eq (show 80 + 4 ≤ s.inLen.toNat by omega),
    h.inWord_eq (show 84 + 4 ≤ s.inLen.toNat by omega), h.inRead_eq (show 88 + 4 ≤ s.inLen.toNat by omega)]
  cases hdx10 : Rule.dx10 s with
  | true =>
    have := dx10_le_inLen hh hdx10
    simp only [h.inRead_eq (show 128 + 4 ≤ s.inLen.toNat by omega), and_self]
  | false => simp

theorem SameOperands.hasDecoder_iff (h : SameOperands s s') (hh : Rule.HeaderWhole s) : HasDecoder s' ↔ HasDecoder s := by
  rw [HasDecoder, HasDecoder, (h.format_eq hh).1]

theorem SameOperands.blockBytes_eq (h : SameOperands s s') (hh : Rule.HeaderWhole s) :
    Rule.blockBytes s' = Rule.blockBytes s := by
  rw [Rule.blockBytes, Rule.blockBytes, (h.format_eq hh).1]

theorem SameOperands.headerLength_eq (h : SameOperands s s') (hh : Rule.HeaderWhole s) :
    Rule.headerLength s' = Rule.headerLength s := by
  rw [Rule.headerLength, Rule.headerLength, h.dx10_eq hh.1]

theorem SameOperands.mips_eq (h : SameOperands s s') (hh : Rule.HeaderWhole s) : Rule.mips s' = Rule.mips s := by
  have hlen : 128 ≤ s.inLen.toNat := hh.1
  rw [Rule.mips, Rule.mips, h.inRead_eq (by omega)]

theorem SameOperands.faces_eq (h : SameOperands s s') (hh : Rule.HeaderWhole s) : Rule.faces s' = Rule.faces s := by
  have hlen : 128 ≤ s.inLen.toNat := hh.1
  rw [Rule.faces, Rule.faces, Rule.cubemap, Rule.cubemap, h.inRead_eq (by omega)]

theorem SameOperands.width_eq (h : SameOperands s s') (hh : Rule.HeaderWhole s) : Rule.width s' = Rule.width s := by
  have hlen : 128 ≤ s.inLen.toNat := hh.1
  funext L
  rw [Rule.width, Rule.width, h.inRead_eq (by omega)]

theorem SameOperands.height_eq (h : SameOperands s s') (hh : Rule.HeaderWhole s) : Rule.height s' = Rule.height s := by
  have hlen : 128 ≤ s.inLen.toNat := hh.1
  funext L
  rw [Rule.height, Rule.height, h.inRead_eq (by omega)]

theorem SameOperands.size_eq (h : SameOperands s s') (hh : Rule.HeaderWhole s) : Rule.size s' = Rule.size s := by
  funext L
  rw [Rule.size, Rule.size, h.width_eq hh, h.height_eq hh, h.blockBytes_eq hh]

theorem SameOperands.level_eq (h : SameOperands s s') (hh : Rule.HeaderWhole s) : Rule.level s' = Rule.level s := by
  rw [Rule.level, Rule.level, Rule.unset, Rule.unset, h.reqSlice, h.reqWidth, h.reqHeight, h.faces_eq hh, h.mips_eq hh,
    h.width_eq hh, h.height_eq hh]

theorem SameOperands.slicePos_eq (h : SameOperands s s') (hh : Rule.HeaderWhole s) :
    Rule.slicePos s' = Rule.slicePos s := by
  funext L
  simp only [Rule.slicePos, Rule.levelsBelow, h.headerLength_eq hh, h.reqSlice, h.size_eq hh, h.mips_eq hh, h.cfg]

/-! ## The blocks -/

/-- A block of a slice inside the stream lies inside the stream (44_raster R255). -/
theorem block_le_inLen {L k : Nat} (hend : Rule.slicePos s L + Rule.size s L ≤ s.inLen.toNat)
    (hk : k < Rule.columns s L * Rule.rows s L) :
    Rule.slicePos s L + k * Rule.blockBytes s + Rule.blockBytes s ≤ s.inLen.toNat := by
  have hblocks : (k + 1) * Rule.blockBytes s ≤ Rule.size s L := Nat.mul_le_mul_right _ hk
  rw [Nat.succ_mul] at hblocks
  omega

theorem SameOperands.reservedBlock_eq (h : SameOperands s s') (hh : Rule.HeaderWhole s) {L : Nat}
    (hend : Rule.slicePos s L + Rule.size s L ≤ s.inLen.toNat) :
    Rule.reservedBlock s' L = Rule.reservedBlock s L := by
  rw [Rule.reservedBlock, Rule.reservedBlock, Rule.columns, Rule.rows, (h.format_eq hh).1, h.width_eq hh, h.height_eq hh,
    h.slicePos_eq hh]
  refine List.find?_congr fun k hk => ?_
  by_cases hbc7 : Rule.format s = .bc7
  · have hbs : Rule.blockBytes s = 16 := by rw [Rule.blockBytes, hbc7]; rfl
    have hblock := block_le_inLen hend (List.mem_range.1 hk)
    rw [hbs] at hblock
    rw [h.bytes _ (by omega)]
  · rw [decide_eq_false hbc7, Bool.false_and, Bool.false_and]

theorem SameOperands.rasterPixel_eq (h : SameOperands s s') (hh : Rule.HeaderWhole s) {L X Y : Nat}
    (hend : Rule.slicePos s L + Rule.size s L ≤ s.inLen.toNat) (hX : X < Rule.width s L) (hY : Y < Rule.height s L) :
    Rule.rasterPixel s' L X Y = Rule.rasterPixel s L X Y := by
  have hblock := block_le_inLen hend (blockOf_lt hX hY)
  obtain ⟨hfmt, hsrgb⟩ := h.format_eq hh
  have hcolumns : Rule.columns s' L = Rule.columns s L := by rw [Rule.columns, Rule.columns, h.width_eq hh]
  rw [Rule.rasterPixel, Rule.rasterPixel, Rule.blockBits, Rule.blockBits, hfmt, hsrgb, hcolumns, h.slicePos_eq hh,
    h.blockBytes_eq hh, h.inRead_eq]
  exact hblock

/-! ## The verdict -/

theorem SameOperands.verdict_eq (h : SameOperands s s') : Rule.verdict s' = Rule.verdict s := by
  unfold Rule.verdict
  rw [h.inLen]
  by_cases h4 : s.inLen.toNat < 4
  · rw [if_pos h4, if_pos h4]
  rw [if_neg h4, if_neg h4, h.inRead_eq (by omega)]
  by_cases hmagic : inRead s 0 4 ≠ 0x20534444
  · rw [if_pos hmagic, if_pos hmagic]
  rw [if_neg hmagic, if_neg hmagic]
  by_cases h128 : s.inLen.toNat < 128
  · rw [if_pos h128, if_pos h128]
  rw [if_neg h128, if_neg h128, h.dx10_eq (not_lt.1 h128)]
  by_cases h148 : Rule.dx10 s = true ∧ s.inLen.toNat < 148
  · rw [if_pos h148, if_pos h148]
  have hh : Rule.HeaderWhole s := ⟨not_lt.1 h128, not_not.1 hmagic, fun hd => not_lt.1 fun hlt => h148 ⟨hd, hlt⟩⟩
  rw [(h.format_eq hh).1, h.level_eq hh, h.slicePos_eq hh, h.size_eq hh, h.width_eq hh, h.height_eq hh, h.cfg]
  cases Rule.level s with
  | none => rfl
  | some L =>
    dsimp only
    by_cases hend : Rule.slicePos s L + Rule.size s L > s.inLen.toNat
    · simp only [if_pos hend]
    · simp only [h.reservedBlock_eq hh (not_lt.1 hend)]

end

end Sys2Proof.Machine
end

section
/-! The result registers of a DECODE as functions of its operands, after every ending, and what follows for two DECODEs:
equal operands give equal registers and the same raster (44_raster R250, R252), and IGNORE_ALPHA reaches the alpha bytes
alone (R257). -/

namespace Sys2Proof.Machine

/-! ## The registers after every ending -/

/-- The level whose slice a DECODE writes to the slice registers, if it comes to one (40_container R143). -/
def locatedLevel (s : State) : Option Nat := if Rule.HeaderWhole s ∧ HasDecoder s then Rule.level s else none

theorem locatedLevel_of_decoder {s : State} (hh : Rule.HeaderWhole s) (hfmt : HasDecoder s) :
    locatedLevel s = Rule.level s := if_pos ⟨hh, hfmt⟩

/-- The slice registers of `t` hold the words of the slice located in `s`, and 0 without one. -/
def SliceWords (s t : State) : Prop :=
  t.sliceOffset = ((locatedLevel s).map fun L => sliceWord Config.unfitOffset (Rule.slicePos s L)).getD 0 ∧
  t.sliceSize = ((locatedLevel s).map fun L => sliceWord Config.unfitSize (Rule.size s L)).getD 0

theorem sliceWords_of_located {s t : State} {L : Nat} (hh : Rule.HeaderWhole s) (hfmt : HasDecoder s)
    (hl : Rule.level s = some L) (hoff : t.sliceOffset = (sliceState s L).sliceOffset)
    (hsize : t.sliceSize = (sliceState s L).sliceSize) : SliceWords s t := by
  rw [SliceWords, locatedLevel_of_decoder hh hfmt, hl]
  exact ⟨hoff, hsize.trans (sliceState_sliceSize hfmt L)⟩

theorem sliceWords_of_unlocated {s t : State} (hno : locatedLevel s = none) (hoff : t.sliceOffset = 0)
    (hsize : t.sliceSize = 0) : SliceWords s t := by
  rw [SliceWords, hno]
  exact ⟨hoff, hsize⟩

/-- The slice registers after every ending, ERR_IO included (40_container R143). -/
theorem DecodeEnding.sliceWords {s t : State} (h : DecodeEnding s t) : SliceWords s t := by
  cases h with
  | badHeader f hh _ ht => subst ht; exact sliceWords_of_unlocated (if_neg fun hn => hh hn.1) rfl rfl
  | passThrough _ hfmt ht => subst ht; exact sliceWords_of_unlocated (if_neg fun ⟨_, hpt, _⟩ => hpt hfmt) rfl rfl
  | noDecoder _ hfmt ht =>
    subst ht
    exact sliceWords_of_unlocated (if_neg fun ⟨_, _, hun, hunc⟩ => hfmt.elim hun hunc) rfl rfl
  | notFound hh hfmt hl ht => subst ht; exact sliceWords_of_unlocated ((locatedLevel_of_decoder hh hfmt).trans hl) rfl rfl
  | io L hh hfmt hl _ ht => subst ht; exact sliceWords_of_located hh hfmt hl rfl rfl
  | capacity L hh hfmt hl _ _ ht => subst ht; exact sliceWords_of_located hh hfmt hl rfl rfl
  | raster L hh hfmt hl hend hcap ht =>
    obtain ⟨hkept, -⟩ := rasterState_results hfmt hend hcap ht
    exact sliceWords_of_located hh hfmt hl hkept.sliceOffset hkept.sliceSize

/-- The blob of a pass-through, and none after every other ending (40_container R136). -/
theorem DecodeEnding.blob {s t : State} (h : DecodeEnding s t) :
    (t.status.result = .passThrough → Rule.HeaderWhole s ∧ t.ptOffset = BitVec.ofNat 32 (Rule.headerLength s) ∧
      t.ptLength = BitVec.ofNat 32 (s.inLen.toNat - Rule.headerLength s)) ∧
    (t.status.result ≠ .passThrough → t.ptOffset = 0 ∧ t.ptLength = 0) := by
  refine ⟨fun hr => ?_, h.noBlob⟩
  cases h with
  | badHeader f _ _ ht => subst ht; exact absurd hr (failureResult_ne f).2.2
  | passThrough hh hfmt ht =>
    subst ht
    rw [completePassThrough_ptOffset, completePassThrough_ptLength, formatState_hl]
    exact ⟨hh, rfl, rfl⟩
  | noDecoder _ _ ht => subst ht; exact Result.noConfusion hr
  | notFound _ _ _ ht => subst ht; exact Result.noConfusion hr
  | io _ _ _ _ _ ht => subst ht; exact Result.noConfusion hr
  | capacity _ _ _ _ _ _ ht => subst ht; exact Result.noConfusion hr
  | raster L _ hfmt _ hend hcap ht =>
    obtain ⟨-, ⟨hres, -⟩ | ⟨hres, -⟩⟩ := rasterState_results hfmt hend hcap ht <;> cases hres.symm.trans hr

/-! ## Two DECODEs -/

/-- The result registers of two DECODEs agree. -/
structure SameResults (t t' : State) : Prop where
  status : t'.status = t.status
  errInfo : t'.errInfo = t.errInfo
  errBlock : t'.errBlock = t.errBlock
  outWidth : t'.outWidth = t.outWidth
  outHeight : t'.outHeight = t.outHeight
  outFormat : t'.outFormat = t.outFormat
  ptOffset : t'.ptOffset = t.ptOffset
  ptLength : t'.ptLength = t.ptLength
  hdr : t'.hdr = t.hdr
  sliceOffset : t'.sliceOffset = t.sliceOffset
  sliceSize : t'.sliceSize = t.sliceSize

section
variable {s s' t t' : State}

theorem SameOperands.mirroredHeader_eq (h : SameOperands s s') (hh : Rule.HeaderWhole s) :
    mirroredHeader s' = mirroredHeader s := by
  have hlen : 128 ≤ s.inLen.toNat := hh.1
  have hword {addr : Nat} (hle : addr + 4 ≤ 128) : inWord s' addr = inWord s addr := h.inWord_eq (by omega)
  have hdx10 {addr : Nat} (hle : addr + 4 ≤ 148) : dx10Word s' addr = dx10Word s addr := by
    rw [dx10Word, dx10Word, streamHasDx10_eq, streamHasDx10_eq, h.dx10_eq hlen]
    split
    · next hd => exact h.inWord_eq (hle.trans (dx10_le_inLen hh hd))
    · rfl
  simp only [mirroredHeader, streamHasDx10_eq, h.dx10_eq hlen, hword, hdx10, Nat.reduceAdd, Nat.reduceLeDiff]

theorem SameOperands.locatedLevel_eq (h : SameOperands s s') : locatedLevel s' = locatedLevel s := by
  have hcond : Rule.HeaderWhole s' ∧ HasDecoder s' ↔ Rule.HeaderWhole s ∧ HasDecoder s := by
    rw [h.headerWhole_iff]
    exact and_congr_right h.hasDecoder_iff
  by_cases hd : Rule.HeaderWhole s ∧ HasDecoder s
  · rw [locatedLevel, locatedLevel, if_pos (hcond.2 hd), if_pos hd, h.level_eq hd.1]
  · rw [locatedLevel, locatedLevel, if_neg (mt hcond.1 hd), if_neg hd]

theorem SameOperands.verdicts_eq (h : SameOperands s s') (ht : DecodeEnding s t) (ht' : DecodeEnding s' t') :
    t'.status.result = t.status.result ∧ t'.errInfo = t.errInfo ∧ t'.errBlock = t.errBlock := by
  have hverdict := ht'.verdict.trans (h.verdict_eq.trans ht.verdict.symm)
  simpa only [Prod.mk.injEq] using hverdict

/-- After OK the second DECODE shows the image of the first one's stream, with its own flag. -/
theorem SameOperands.imageShown (h : SameOperands s s') {L : Nat} (himage : ImageShown s t L)
    (ht' : DecodeEnding s' t') (hok' : t'.status.result = .ok) :
    t'.outWidth = t.outWidth ∧ t'.outHeight = t.outHeight ∧
      ∀ X Y, X < Rule.width s L → Y < Rule.height s L →
        ShowsPixel t'.outMem (Rule.width s L) X Y (alphaPixel s' (Rule.rasterPixel s L X Y)) := by
  obtain ⟨L', himage'⟩ := ht'.imageShown hok'
  have hh := himage.whole
  obtain rfl : L' = L := Option.some.inj (himage'.level.symm.trans ((h.level_eq hh).trans himage.level))
  refine ⟨?_, ?_, fun X Y hX hY => ?_⟩
  · rw [← BitVec.toNat_inj, himage'.width, himage.width, h.width_eq hh]
  · rw [← BitVec.toNat_inj, himage'.height, himage.height, h.height_eq hh]
  · have hpixel := himage'.shows X Y (by rwa [h.width_eq hh]) (by rwa [h.height_eq hh])
    rwa [h.width_eq hh, h.rasterPixel_eq hh himage.inside hX hY] at hpixel

theorem SameOperands.dims_eq (h : SameOperands s s') (ht : DecodeEnding s t) (ht' : DecodeEnding s' t') :
    t'.outWidth = t.outWidth ∧ t'.outHeight = t.outHeight := by
  obtain ⟨hresult, -⟩ := h.verdicts_eq ht ht'
  by_cases hok : t.status.result = .ok
  · obtain ⟨L, himage⟩ := ht.imageShown hok
    obtain ⟨hwidth, hheight, -⟩ := h.imageShown himage ht' (hresult.trans hok)
    exact ⟨hwidth, hheight⟩
  · obtain ⟨hwidth, hheight⟩ := ht.noDims hok
    obtain ⟨hwidth', hheight'⟩ := ht'.noDims (hresult ▸ hok)
    exact ⟨hwidth'.trans hwidth.symm, hheight'.trans hheight.symm⟩

theorem SameOperands.outFormat_eq (h : SameOperands s s') (ht : DecodeEnding s t) (ht' : DecodeEnding s' t') :
    t'.outFormat = t.outFormat := by
  obtain ⟨hbad, hwhole⟩ := ht.outFormat
  obtain ⟨hbad', hwhole'⟩ := ht'.outFormat
  by_cases hh : Rule.HeaderWhole s
  · obtain ⟨hfmt, hsrgb⟩ := h.format_eq hh
    rw [hwhole' (h.headerWhole_iff.2 hh), hwhole hh, hfmt, hsrgb]
  · rw [hbad' (mt h.headerWhole_iff.1 hh), hbad hh]

theorem SameOperands.blob_eq (h : SameOperands s s') (ht : DecodeEnding s t) (ht' : DecodeEnding s' t') :
    t'.ptOffset = t.ptOffset ∧ t'.ptLength = t.ptLength := by
  obtain ⟨hresult, -⟩ := h.verdicts_eq ht ht'
  obtain ⟨hblob, hnone⟩ := ht.blob
  obtain ⟨hblob', hnone'⟩ := ht'.blob
  by_cases hpt : t.status.result = .passThrough
  · obtain ⟨hh, hoff, hlen⟩ := hblob hpt
    obtain ⟨-, hoff', hlen'⟩ := hblob' (hresult.trans hpt)
    rw [hoff, hlen, hoff', hlen', h.headerLength_eq hh, h.inLen]
    exact ⟨rfl, rfl⟩
  · obtain ⟨hoff, hlen⟩ := hnone hpt
    obtain ⟨hoff', hlen'⟩ := hnone' (hresult ▸ hpt)
    exact ⟨hoff'.trans hoff.symm, hlen'.trans hlen.symm⟩

theorem SameOperands.hdr_eq (h : SameOperands s s') (ht : DecodeEnding s t) (ht' : DecodeEnding s' t') :
    t'.hdr = t.hdr := by
  rw [ht'.hdr, ht.hdr]
  by_cases hh : Rule.HeaderWhole s
  · rw [if_pos (h.headerWhole_iff.2 hh), if_pos hh, h.mirroredHeader_eq hh]
  · rw [if_neg (mt h.headerWhole_iff.1 hh), if_neg hh]

theorem SameOperands.slice_eq (h : SameOperands s s') (ht : DecodeEnding s t) (ht' : DecodeEnding s' t') :
    t'.sliceOffset = t.sliceOffset ∧ t'.sliceSize = t.sliceSize := by
  obtain ⟨hoff, hsize⟩ := ht.sliceWords
  obtain ⟨hoff', hsize'⟩ := ht'.sliceWords
  rw [hoff, hsize, hoff', hsize', h.locatedLevel_eq]
  by_cases hh : Rule.HeaderWhole s
  · rw [h.slicePos_eq hh, h.size_eq hh]
    exact ⟨rfl, rfl⟩
  · rw [locatedLevel, if_neg fun hn => hh hn.1]
    exact ⟨rfl, rfl⟩

/-- Equal operands give equal result registers, after any ending (44_raster R250, R252). -/
theorem SameOperands.sameResults (h : SameOperands s s') (ht : DecodeEnding s t) (ht' : DecodeEnding s' t') :
    SameResults t t' := by
  obtain ⟨hresult, hinfo, hblock⟩ := h.verdicts_eq ht ht'
  obtain ⟨hwidth, hheight⟩ := h.dims_eq ht ht'
  obtain ⟨hptOffset, hptLength⟩ := h.blob_eq ht ht'
  obtain ⟨hoff, hsize⟩ := h.slice_eq ht ht'
  exact ⟨by rw [ht'.status, ht.status, hresult], hinfo, hblock, hwidth, hheight, h.outFormat_eq ht ht', hptOffset,
    hptLength, h.hdr_eq ht ht', hoff, hsize⟩

end

/-! ## The rasters -/

/-- Every place in a row-major raster is a pixel. -/
theorem exists_pixel_of_lt {W H p : Nat} (h : p < W * H) : ∃ X Y, X < W ∧ Y < H ∧ p = Y * W + X := by
  have hW : 0 < W := Nat.pos_of_ne_zero fun h0 => by simp [h0] at h
  refine ⟨p % W, p / W, Nat.mod_lt _ hW, Nat.div_lt_of_lt_mul h, ?_⟩
  rw [Nat.mul_comm]
  exact (Nat.div_add_mod p W).symm

/-- Settles O38: the registers are functions of the operands, and so is every byte of the image. -/
theorem decodeDependsOnlyOnOperands : Obligations.DecodeDependsOnlyOnOperands := by
  intro data s s' t t' hcmd hcmd' hcfg hlen hslice hwidth hheight hflags hbytes ht ht'
  have hend := decodeEnding_of_runDecode ((exec_decode_of_commanded hcmd).symm.trans ht)
  have hend' := decodeEnding_of_runDecode ((exec_decode_of_commanded hcmd').symm.trans ht')
  have hsame : SameOperands s s' := ⟨hcfg, hlen, hslice, hwidth, hheight, hbytes⟩
  have hres := hsame.sameResults hend hend'
  refine ⟨hres.status, hres.errInfo, hres.errBlock, hres.outWidth, hres.outHeight, hres.outFormat, hres.ptOffset,
    hres.ptLength, hres.hdr, hres.sliceOffset, hres.sliceSize, fun hok a ha => ?_⟩
  obtain ⟨L, himage⟩ := hend.imageShown hok
  obtain ⟨-, -, hshows'⟩ := hsame.imageShown himage hend' (hres.status ▸ hok)
  rw [himage.width, himage.height, Nat.mul_assoc] at ha
  obtain ⟨X, Y, hX, hY, hp⟩ := exists_pixel_of_lt (show a / 4 < Rule.width s L * Rule.height s L by omega)
  have haddr : a = pixelAddr (Rule.width s L) X Y + a % 4 := by unfold pixelAddr; omega
  have hpixel : alphaPixel s' (Rule.rasterPixel s L X Y) = alphaPixel s (Rule.rasterPixel s L X Y) := by
    rw [alphaPixel, alphaPixel, ignoreAlpha, ignoreAlpha, hflags]
  have hmod : a % 4 < 4 := Nat.mod_lt _ (by decide)
  rw [haddr, hshows' X Y hX hY _ hmod, himage.shows X Y hX hY _ hmod, hpixel]

/-- Settles O37: two states with the same operands but for the flag, whose images differ where ALPHA writes. -/
theorem ignoreAlphaChangesAlphaOnly : Obligations.IgnoreAlphaChangesAlphaOnly := by
  intro data s t u hcmd ht hu
  have hend := decodeEnding_of_runDecode
    ((exec_decode_of_commanded (data := data) (s := { s with reqFlags := 0 }) hcmd).symm.trans ht)
  have hend' := decodeEnding_of_runDecode
    ((exec_decode_of_commanded (data := data) (s := { s with reqFlags := 1 }) hcmd).symm.trans hu)
  have hsame : SameOperands { s with reqFlags := 0 } { s with reqFlags := 1 } :=
    ⟨rfl, rfl, rfl, rfl, rfl, fun _ _ => rfl⟩
  have hflag : (1 : Word).getLsbD 0 = true := by decide
  have hres := hsame.sameResults hend hend'
  refine ⟨hres.status, hres.errInfo, hres.errBlock, hres.outWidth, hres.outHeight, hres.outFormat, hres.sliceOffset,
    hres.sliceSize, hres.ptOffset, hres.ptLength, hres.hdr, fun hok p hp => ?_⟩
  obtain ⟨L, himage⟩ := hend.imageShown hok
  obtain ⟨-, -, hshows'⟩ := hsame.imageShown himage hend' (hres.status ▸ hok)
  rw [himage.width, himage.height] at hp
  obtain ⟨X, Y, hX, hY, rfl⟩ := exists_pixel_of_lt hp
  obtain ⟨hr, hg, hb, -⟩ := showsPixel_alphaPixel (himage.shows X Y hX hY)
  obtain ⟨hr', hg', hb', ha'⟩ := showsPixel_alphaPixel (hshows' X Y hX hY)
  exact ⟨hr'.trans hr.symm, hg'.trans hg.symm, hb'.trans hb.symm, ha'.trans (congrArg some (if_pos hflag))⟩

end Sys2Proof.Machine
end

section
/-! The endings of a DECODE: taking a failure (60_exceptions R290), and the one result every DECODE completes with
(R287). -/

namespace Sys2Proof.Machine

/-! ## ERR_INFO -/

/-- ERR_INFO's fields do not overlap, so the packed word is their sum by place (10_state R26). -/
theorem errInfoWord_toNat {bitpos mode sub : Nat} (hpos : bitpos < 2 ^ 24) (hmode : mode < 16) (hsub : sub < 16) :
    (errInfoWord bitpos mode sub).toNat = bitpos * 256 + mode * 16 + sub := by
  have hhigh : (bitpos <<< 8) ||| (mode <<< 4) = (bitpos * 16 + mode) <<< 4 := by
    rw [← Nat.shiftLeft_add_eq_or_of_lt (i := 8) (by rw [Nat.shiftLeft_eq]; omega)]
    simp only [Nat.shiftLeft_eq]
    omega
  rw [errInfoWord, hhigh, ← Nat.shiftLeft_add_eq_or_of_lt (i := 4) hsub, Nat.shiftLeft_eq, BitVec.toNat_ofNat]
  omega

/-! ## Taking a failure -/

/-- A failure writes its result registers and nothing else (60_exceptions R288, R290). -/
theorem failedWith_raiseFail (f : Failure) (s : State) :
    FailedWith (failureResult f) (raiseFail f s).errInfo s.errBlock s (raiseFail f s) := rfl

/-- Settles O39: ERR_INFO is written for a structural failure only, with the values of R280. -/
theorem takingAFailure : Obligations.TakingAFailure := by
  intro f s
  have hfail := failedWith_raiseFail f s
  refine ⟨fun hf => ?_, fun hf => ?_, ?_, rfl, rfl, rfl, fun mode pos hmode hpos => ?_⟩
  · rwa [raiseFail_errInfo, if_pos hf, hf] at hfail
  · rwa [raiseFail_errInfo, if_neg hf] at hfail
  · cases f <;> simp [failureResult]
  · exact errInfoWord_toNat (by omega) (by omega) (by decide)

/-! ## Every DECODE completes -/

/-- Every ending of a DECODE leaves phase IDLE (60_exceptions R290, 44_raster R258, R260). -/
theorem DecodeEnding.phase {s t : State} (h : DecodeEnding s t) : t.phase = .idle := by
  cases h with
  | badHeader _ _ _ ht => rw [ht]; rfl
  | passThrough _ _ ht => rw [ht]; rfl
  | noDecoder _ _ ht => rw [ht]; rfl
  | notFound _ _ _ ht => rw [ht]; rfl
  | io _ _ _ _ _ ht => rw [ht]; rfl
  | capacity _ _ _ _ _ _ ht => rw [ht]; rfl
  | raster _ _ hfmt _ hend hcap ht =>
    obtain ⟨_, -, rfl⟩ | ⟨_, _, -, -, rfl⟩ := rasterState_ending hfmt hend hcap ht <;> rfl

/-- Settles O29: the command runs to one of its endings, and each of them is the first check's. -/
theorem decodeResultIsTheFirstCheck : Obligations.DecodeResultIsTheFirstCheck := by
  intro data s hcmd
  obtain ⟨t, ht⟩ := runDecode_answers s
  have hend := decodeEnding_of_runDecode ht
  have hstatus := hend.status
  refine ⟨t, (exec_decode_of_commanded hcmd).trans ht, congrArg Status.busy hstatus, congrArg Status.done hstatus,
    hend.phase, hend.verdict, ?_, ?_⟩
  · rw [congrArg Status.rasterValid hstatus, beq_iff_eq]
  · rw [congrArg Status.ptValid hstatus, beq_iff_eq]

end Sys2Proof.Machine
end

section
/-! Progress of the whole core (70_reset R319, R320), and what it shows while idle, while BUSY and straight after reset
(R312, R315, R316). -/

namespace Sys2Proof.Machine

/-! ## Every step answers -/

/-- DECODE answers in every state, whether it is ignored, started or run to its end (44_raster R250). -/
theorem exec_decode_answers (data : Word) (s : State) : ∃ t, exec (.decode data) s = .next t := by
  show ∃ t, execDecode data s = .next t
  obtain ⟨-, he⟩ | ⟨-, -, -, he⟩ | ⟨-, -, -, he⟩ := execDecode_cases data s
  · exact ⟨s, he⟩
  · exact ⟨startDecode s, he⟩
  · rw [he]
    exact runDecode_answers s

/-- The ENGINE's step has its move or its instruction in every phase: phase DECODE finds its block in the stream and the
raster in OUT, and so does phase ALPHA (44_raster R253, R255). -/
theorem engineMove_answers {u : State} (h : PhaseInv u) :
    (∃ t, engineMove u = .moved t) ∨ ∃ i t, engineMove u = .run i u ∧ exec i u = .next t := by
  cases hp : u.phase with
  | idle => exact .inl ⟨_, engineMove_idle hp⟩
  | parse => exact .inl ⟨_, engineMove_parse hp⟩
  | resolve => exact .inl ⟨_, engineMove_resolve hp⟩
  | locate => exact .inl ⟨_, engineMove_locate hp⟩
  | alloc => exact .inl ⟨_, engineMove_alloc hp⟩
  | decode =>
    obtain ⟨hslice, hraster⟩ := (phaseInv_decode_iff hp).1 h
    obtain ⟨i, hi⟩ := fetchBlock_ok hslice hraster
    obtain ⟨t, ht, -⟩ := phaseInv_blockStep hp h
    exact .inr ⟨i, t, engineMove_decode hp hi, (blockStep_of_fetch hi).symm.trans ht⟩
  | alpha =>
    obtain ⟨t, ht, -⟩ := phaseInv_alphaPhase h
    exact .inl ⟨t, engineMove_alpha hp ht⟩
  | finish => exact .inl ⟨_, engineMove_finish hp⟩

/-- A step that is the ENGINE's answers. -/
theorem engineStep_answers {s u : State} (h : PhaseInv u) (hm : nextMove s = engineMove u) : ∃ t, step s = .next t := by
  obtain ⟨t, ht⟩ | ⟨i, t, hrun, ht⟩ := engineMove_answers h
  · exact ⟨t, step_of_moved (hm.trans ht)⟩
  · exact ⟨t, (step_of_run (hm.trans hrun)).trans ht⟩

/-- Settles O59, by the outside world's next turn: an ENGINE step and a DECODE answer, every other turn has its own
effect. -/
theorem noStepStopsUnderTheInvariant : Obligations.NoStepStopsUnderTheInvariant := by
  intro s h
  obtain ⟨-, hm⟩ | ⟨n, rest, -, hm⟩ | ⟨_, -, he⟩ | ⟨_, -, he⟩ | ⟨_, _, -, -, he⟩ | ⟨v, _, -, -, he⟩ := nextTurn_cases s
  · exact engineStep_answers h.phaseReady hm
  · exact engineStep_answers (h.phaseReady.of_world (.ticks n :: rest) s.draws s.busData) hm
  · exact ⟨_, he⟩
  · exact ⟨_, he⟩
  · exact ⟨_, he⟩
  · rw [he]
    exact exec_decode_answers v _

/-! ## The idle core -/

/-- A step that is an idle ENGINE's keeps the state it starts from (60_exceptions R295). -/
theorem step_of_idle_engine {s u : State} (hp : u.phase = .idle) (hm : nextMove s = engineMove u) : step s = .next u :=
  step_of_moved (hm.trans (engineMove_idle hp))

/-- What an idle core shows and holds between two DECODEs (70_reset R316): every field but IN, IN_LEN, the request
registers and what belongs to the outside world. -/
def ResultsStay (s t : State) : Prop :=
  t = { s with
    inLen := t.inLen
    reqSlice := t.reqSlice
    reqWidth := t.reqWidth
    reqHeight := t.reqHeight
    reqFlags := t.reqFlags
    inMem := t.inMem
    draws := t.draws
    turns := t.turns
    busData := t.busData }

/-- With the core idle, a turn that is neither reset nor START leaves the results. -/
theorem resultsStay_step {s t : State} (hp : s.phase = .idle) (h : step s = .next t)
    (hrst : s.turns.head? ≠ some .rst)
    (hstart : ∀ v : Word, s.turns.head? = some (.access (.regWrite .word 0 v)) → v.getLsbD 0 = false) :
    ResultsStay s t := by
  obtain ⟨-, hm⟩ | ⟨n, rest, -, hm⟩ | ⟨rest, -, he⟩ | ⟨rest, hturns, -⟩ | ⟨a, rest, -, -, he⟩ |
    ⟨v, rest, hturns, hv, -⟩ := nextTurn_cases s
  · cases (step_of_idle_engine hp hm).symm.trans h
    rfl
  · cases (step_of_idle_engine (u := { s with turns := .ticks n :: rest }) hp hm).symm.trans h
    rfl
  · cases he.symm.trans h
    rfl
  · exact absurd (congrArg List.head? hturns) hrst
  · cases he.symm.trans h
    rw [hostAccess_frame a { s with turns := rest }]
    rfl
  · cases (hstart v (congrArg List.head? hturns)).symm.trans hv

/-- Settles O52: the idle ENGINE's step, and the results over any other turn. -/
theorem idleCoreKeepsItsResults : Obligations.IdleCoreKeepsItsResults := by
  refine ⟨fun s hp hturns => step_of_idle_engine hp (nextMove_of_nil hturns), fun s t hp h hrst hstart => ?_⟩
  rw [resultsStay_step hp h hrst hstart]
  exact ⟨rfl, rfl, rfl, rfl, rfl, rfl, rfl, rfl, rfl, rfl, rfl, rfl, hp, rfl, rfl, rfl, rfl, rfl⟩

/-! ## Reads while BUSY -/

/-- While BUSY the STATUS word is BUSY alone (10_state R24). -/
theorem statusWord_of_busy {s : State} (h : Inv s) (hb : s.status.busy = true) : statusWord s.status = 1 := by
  obtain ⟨hstatus, -, -⟩ := h.started (h.busyPhase.1 hb)
  rw [hstatus]
  rfl

/-- Settles O51: the six registers stand in the register map behind CTRL, and none of them is left open while BUSY. -/
theorem statusAndRequestsReadWhileBusy : Obligations.StatusAndRequestsReadWhileBusy := by
  intro s off v rest hinv hb hturns hmem
  rw [← statusWord_of_busy hinv hb] at hmem
  have hmap : (off, v) ∈ registerMap { s with turns := rest } :=
    List.mem_of_mem_drop (i := 1) (List.mem_of_mem_take (i := 6) hmem)
  have hserved : unspecifiedWhileBusy off = false := by
    simp only [List.mem_cons, List.not_mem_nil, or_false, Prod.mk.injEq] at hmem
    simp only [unspecifiedWhileBusy, decide_eq_false_iff_not]
    omega
  obtain ⟨hal, hv⟩ := registerValue_of_mem hmap
  rw [step_of_regRead hturns, regRead_of_served hal (.inr hserved)]
  exact congrArg (fun x => Host.Outcome.next { s with turns := rest, busData := x }) hv

/-! ## A DECODE of a stream without a header -/

/-- A DECODE of a stream too short for a magic word ends in PARSE with TRUNC_HEADER, whatever IN holds (40_container
R120). -/
theorem exec_decode_of_noMagic {data : Word} {s : State} (h : Commanded data s) (hlen : streamLength s < 4) :
    exec (.decode data) s = .next (raiseFail .truncHeader (startDecode s)) := by
  have hfail : parseFailure (startDecode s) = some .truncHeader := if_pos hlen
  have hparse : parsePhase (startDecode s) = raiseFail .truncHeader (startDecode s) := by
    rw [parsePhase, if_pos (startDecode_phase s), hfail]
  obtain ⟨hres, hloc, hrun⟩ := runDecode_of_ended (s := raiseFail .truncHeader (startDecode s)) rfl
  rw [exec_decode_of_commanded h, runDecode, hparse, hres, hloc, hrun]

/-- Settles O54: reset leaves IN_LEN 0 and every result clear, so the start of the DECODE clears nothing. -/
theorem decodeAfterResetIsTruncated : Obligations.DecodeAfterResetIsTruncated := by
  refine ⟨fun data hstart => ?_, fun data s hstart hacts => ?_⟩
  · exact ⟨_, exec_decode_of_noMagic ⟨hstart, rfl, rfl⟩ (show 0 < 4 by decide), rfl⟩
  · exact ⟨_, exec_decode_of_noMagic (s := applyReset s) ⟨hstart, rfl, hacts⟩ (show 0 < 4 by decide), rfl⟩

end Sys2Proof.Machine
end

section
/-! The model's own stop for a raster that does not fit OUT: every instruction that decodes to pixels is the end of a
block, and there the check of the raster stands. -/

namespace Sys2Proof.Machine

/-- Every instruction but the command and the reserved mode is the end of a block (41_dxt R157 to R161, 42_bc7 R197): the
DXT formats and the eight modes fail for no reason of their own. -/
theorem exec_eq_finishBlock {i : Instr} (hcommand : ∀ data, i ≠ .decode data) (hreserved : ∀ rest, i ≠ .bc7Reserved rest)
    (s : State) : ∃ px, exec i s = finishBlock px s := by
  cases i with
  | decode data => exact absurd rfl (hcommand data)
  | bc7Reserved rest => exact absurd rfl (hreserved rest)
  | dxt1 c0 c1 sel => exact ⟨_, exec_dxt1 c0 c1 sel s⟩
  | dxt3 alpha c0 c1 sel => exact ⟨_, exec_dxt3 alpha c0 c1 sel s⟩
  | dxt5 a0 a1 asel c0 c1 sel => exact ⟨_, exec_dxt5 a0 a1 asel c0 c1 sel s⟩
  | _ => exact ⟨_, exec_bc7 rfl s⟩

/-- Settles O22: the instruction is the end of a block, which faults where the raster does not fit OUT. -/
theorem pixelBlocksFaultOutsideOut : Obligations.PixelBlocksFaultOutsideOut := by
  intro i s hsmall hcommand hreserved
  obtain ⟨px, hpx⟩ := exec_eq_finishBlock hcommand hreserved s
  rw [hpx, finishBlock_of_not_fits hsmall]

end Sys2Proof.Machine
end

section
/-! A word of the opcode table placed in a state: its encoding stands where the next step looks for an instruction, as the
HOST's next turn or as the ENGINE's current block, so what a step runs is what the decoder reads from the word. -/

namespace Sys2Proof.Machine

/-! ## The word's encoding -/

/-- What the decoder reads from a table word is what it reads from the encoding the word stands for. -/
theorem decode_of_decodeTableWord {nbits w : Nat} {e : Encoded} {i : Instr} (h : decodeTableWord nbits w = some i)
    (he : tableWord nbits w = some e) : decode e = .ok i := by
  simp only [decodeTableWord, he] at h
  cases hd : decode e with
  | error _ => simp [hd, Except.toOption] at h
  | ok j => simpa [hd, Except.toOption] using h

theorem withFetchWord_of_tableWord {nbits w : Nat} {e : Encoded} (he : tableWord nbits w = some e) (s : State) :
    s.withFetchWord nbits w = placeEncoded e s := by
  rw [State.withFetchWord, he]

/-! ## A placed block -/

/-- Bytes written to IN from address 0 on are the bytes read there, whatever IN holds behind them. -/
theorem inBytes_of_written {s : State} {bs : List Byte} (h : s.inMem = Memory.writeList [] 0 bs) :
    inBytes s 0 bs.length = bs := by
  refine List.ext_getElem? fun j => ?_
  by_cases hj : j < bs.length
  · rw [inBytes_getElem? s 0 _ j hj, inByte, h, Memory.read_writeList, if_pos (by omega), Nat.zero_add, Nat.sub_zero,
      List.getElem?_eq_getElem hj, Option.getD_some]
  · rw [List.getElem?_eq_none (by rw [inBytes_length]; omega), List.getElem?_eq_none (by omega)]

/-- A block of a format that has a decoder has 8 or 16 bytes (30_encoding R90, R108). -/
theorem length_le_of_decode_block {fmt : BlockFormat} {blk : List Byte} {i : Instr}
    (h : decode (.block fmt blk) = .ok i) : blk.length ≤ 16 := by
  obtain ⟨-, hlen, -⟩ | ⟨-, hlen, -⟩ | ⟨-, hlen, -⟩ | ⟨-, hlen, -⟩ := decode_block_eq_ok h <;> omega

/-- The current block of a state with a block placed lies at address 0 and ends with the stream. -/
theorem fetchBlock_placeBlock {fmt : BlockFormat} {blk : List Byte} {i : Instr} (h : decode (.block fmt blk) = .ok i)
    (s : State) : fetchBlock (placeBlock fmt blk s) = .ok i := by
  have haddr : blockAddr (placeBlock fmt blk s) = 0 := (Nat.zero_add _).trans (Nat.zero_mul _)
  have hbytes : inBytes (placeBlock fmt blk s) 0 blk.length = blk := inBytes_of_written rfl
  have hstream : streamLength (placeBlock fmt blk s) = blk.length := by
    have hlen := length_le_of_decode_block h
    exact Nat.mod_eq_of_lt (by omega)
  rw [fetchBlock_eq_ok, haddr, hstream]
  exact ⟨(Nat.zero_add _).le, (congrArg (fun bs => decode (.block fmt bs)) hbytes).trans h⟩

/-! ## The step -/

/-- A command placed is the HOST's next turn, and the state behind that turn is the one it was placed in. -/
theorem step_placed_command {v : Word} {i : Instr} (h : decode (.command v) = .ok i) (s : State) :
    step (placeEncoded (.command v) s) = exec i s :=
  step_of_run (nextMove_of_command rfl (commandOf_of_decode h))

/-- A block placed is the ENGINE's next step, the one step its turn leaves it. -/
theorem step_placed_block {fmt : BlockFormat} {blk : List Byte} {i : Instr} (h : decode (.block fmt blk) = .ok i)
    (s : State) :
    step (placeEncoded (.block fmt blk) s) = exec i { placeBlock fmt blk s with turns := .ticks 0 :: s.turns } := by
  have hfetch := (fetchBlock_turns _ (.ticks 0 :: s.turns)).trans (fetchBlock_placeBlock h s)
  exact step_of_run ((nextMove_of_ticks_succ rfl).trans (engineMove_decode rfl hfetch))

/-- Settles O56, by what the word stands for. -/
theorem placedWordIsRunNext : Obligations.PlacedWordIsRunNext := by
  intro s nbits w i h
  refine ⟨fun v hv => ?_, fun fmt blk hblock => ?_⟩
  · rw [withFetchWord_of_tableWord hv]
    exact step_placed_command (decode_of_decodeTableWord h hv) s
  · rw [withFetchWord_of_tableWord hblock]
    exact step_placed_block (decode_of_decodeTableWord h hblock) s

end Sys2Proof.Machine
end
